-- ==== Sys2Proof/Word.lean ====
section
/-! DEFINITION. The plainest data of the model: bytes, the four lines, the eight zones, and a record of four or
eight like things read and written by name. -/

namespace Sys2Proof

/-- One byte of a payload or of the configuration image. -/
abbrev Byte := BitVec 8

/-- The exchange lines L0 to L3 (00_scope, section 5). -/
inductive LineId where
  | l0 | l1 | l2 | l3
deriving DecidableEq, Repr

namespace LineId

/-- The lines in line order. -/
def all : List LineId := [.l0, .l1, .l2, .l3]

/-- The index k of line Lk. -/
def index : LineId → Nat
  | .l0 => 0
  | .l1 => 1
  | .l2 => 2
  | .l3 => 3

/-- The line of an index; none above 3. -/
def ofIndex : Nat → Option LineId
  | 0 => some .l0
  | 1 => some .l1
  | 2 => some .l2
  | 3 => some .l3
  | _ => none

end LineId

/-- The zone inputs Z1 to Z8 (R1). -/
inductive ZoneId where
  | z1 | z2 | z3 | z4 | z5 | z6 | z7 | z8
deriving DecidableEq, Repr

namespace ZoneId

/-- The zones in zone order, Z1 first (R7). -/
def all : List ZoneId := [.z1, .z2, .z3, .z4, .z5, .z6, .z7, .z8]

/-- The number n of zone Zn, which is also its source number 0n (R5). -/
def number : ZoneId → Nat
  | .z1 => 1
  | .z2 => 2
  | .z3 => 3
  | .z4 => 4
  | .z5 => 5
  | .z6 => 6
  | .z7 => 7
  | .z8 => 8

end ZoneId

/-- One value for each of the four lines. -/
structure Four (α : Type) where
  l0 : α
  l1 : α
  l2 : α
  l3 : α
deriving DecidableEq, Repr

namespace Four
variable {α β : Type}

/-- The same value on every line. -/
def const (a : α) : Four α := ⟨a, a, a, a⟩

/-- The value of one line. -/
def get (f : Four α) : LineId → α
  | .l0 => f.l0
  | .l1 => f.l1
  | .l2 => f.l2
  | .l3 => f.l3

/-- One line's value replaced. -/
def set (f : Four α) (k : LineId) (a : α) : Four α :=
  match k with
  | .l0 => { f with l0 := a }
  | .l1 => { f with l1 := a }
  | .l2 => { f with l2 := a }
  | .l3 => { f with l3 := a }

/-- A function of the line and its value, on every line. -/
def mapLines (g : LineId → α → β) (f : Four α) : Four β :=
  ⟨g .l0 f.l0, g .l1 f.l1, g .l2 f.l2, g .l3 f.l3⟩

/-- The values in line order. -/
def toList (f : Four α) : List α := [f.l0, f.l1, f.l2, f.l3]

end Four

/-- One value for each of the eight zones. -/
structure Eight (α : Type) where
  z1 : α
  z2 : α
  z3 : α
  z4 : α
  z5 : α
  z6 : α
  z7 : α
  z8 : α
deriving DecidableEq, Repr

namespace Eight
variable {α β : Type}

/-- The same value on every zone. -/
def const (a : α) : Eight α := ⟨a, a, a, a, a, a, a, a⟩

/-- The value of one zone. -/
def get (f : Eight α) : ZoneId → α
  | .z1 => f.z1
  | .z2 => f.z2
  | .z3 => f.z3
  | .z4 => f.z4
  | .z5 => f.z5
  | .z6 => f.z6
  | .z7 => f.z7
  | .z8 => f.z8

/-- A value made from each zone's name. -/
def ofZone (g : ZoneId → α) : Eight α :=
  ⟨g .z1, g .z2, g .z3, g .z4, g .z5, g .z6, g .z7, g .z8⟩

end Eight

end Sys2Proof
end

