-- ==== Sys2Proof/Syntax.lean ====
section
/-! DEFINITION. The commands: one constructor per row of spec/opcode_table.json, in the table's order, with what the
outside world brings at that step (a measurement, a frame's bits, the audio heard, which line's timer). -/

namespace Sys2Proof

/-- One measurement of a zone loop: its resistance and the nominal end-of-line value, in one unit (R2). -/
structure LoopMeasure where
  loop : Nat
  eol : Nat
deriving DecidableEq, Repr

/-- The four error kinds of Table 5-3 (R83). -/
inductive ErrorKind where
  | bit | form | check | ack
deriving DecidableEq, Repr

/-- A step of the station (opcode_table.json). -/
inductive Instr where
  /-- RESET (R165): RESETn low, power-on or a supply fall. -/
  | reset
  /-- RELEASE_OF_RESET (R165), with the levels of ADDR3 to ADDR0 read at it (R166). -/
  | releaseOfReset (straps : BitVec 4)
  /-- CONFIG_READ_DONE (R170), with the 416 bits clocked in, byte 0 first and most significant (R167). -/
  | configReadDone (image : BitVec 416)
  /-- ZONE_SAMPLE_PASS (R2), with the eight loops as measured. -/
  | zoneSamplePass (loops : Eight LoopMeasure)
  /-- TEST_TIMER_EXPIRY (R13). -/
  | testTimerExpiry
  /-- LINE_SAMPLE_PASS (R56), with the four line voltages in millivolts, either polarity (R55). -/
  | lineSamplePass (volts : Four Int)
  /-- DEAD_TIMER_EXPIRY (R57) of one line. -/
  | deadTimerExpiry (k : LineId)
  /-- ALL_DEAD_TIMER_EXPIRY (R58). -/
  | allDeadTimerExpiry
  /-- PEER_IDLE_LIMIT (R65) of one line. -/
  | peerIdleLimit (k : LineId)
  /-- STATION_TIME_TICK (R40). -/
  | stationTimeTick
  /-- NOT_BEFORE_PASSES (R27). -/
  | notBeforePasses
  /-- NEXT_OFFER_TIME_PASSES (R146). -/
  | nextOfferTimePasses
  /-- CARRY_TIMEOUT (R153) of the own record with a sequence number. -/
  | carryTimeout (seq : Byte)
  /-- BUS_TROUBLE_TIMER_EXPIRY (R11). -/
  | busTroubleTimerExpiry
  /-- JOIN_PERIOD_END (R95). -/
  | joinPeriodEnd
  /-- BUS_IDLE (R78), with the bits read since the wire step before it, first read first; true is recessive (R75). -/
  | busIdle (read : List Bool := [])
  /-- FRAME_START (R79), with the level at which the start-of-frame bit is read back; true is recessive, which only a
  fault of the station's own driver makes it (R75, R80, R86). -/
  | frameStart (start : Bool := false)
  /-- RECEIVE_ERROR (R87), with the kind found (Table 5-3) and the bits read since the wire step before it, the last
  being the one at which it is found; and with the eight bits that an active station reads while it sends the abort
  pattern, the first read highest (R75, R84). -/
  | receiveError (kind : ErrorKind) (read : List Bool := []) (echo : BitVec 8 := 0)
  /-- TRANSMIT_ERROR (R84), with the kind found (Table 5-3) and the bits read since the start-of-frame bit: up to the one
  at which it is found, none where that is the start-of-frame bit itself, and at an ACK error of a passive station to the
  last end bit (R85); and with the eight bits read in the abort pattern, as RECEIVE_ERROR. -/
  | transmitError (kind : ErrorKind) (read : List Bool := []) (echo : BitVec 8 := 0)
  /-- PASSIVE_SUSPEND_END (R85). -/
  | passiveSuspendEnd
  /-- STUCK_ENTRY (R90). -/
  | stuckEntry
  /-- STUCK_EXIT (R90). -/
  | stuckExit
  /-- BUS_OFF_RECOVERY (R89), with the bits read since the wire step before it. -/
  | busOffRecovery (read : List Bool := [])
  /-- CLAIM_RECEIVED (R105): the value and the 1 payload byte of the frame (Table 11-2), and, as in every frame received,
  whether its ACK slot read dominant (R75, R81). -/
  | claimReceived (value : BitVec 13) (payload : BitVec 8) (acked : Bool := true)
  /-- OBJECT_RECEIVED (R109): value and 2 payload bytes. -/
  | objectReceived (value : BitVec 13) (payload : BitVec 16) (acked : Bool := true)
  /-- RELEASE_RECEIVED (R114): value and 2 payload bytes. -/
  | releaseReceived (value : BitVec 13) (payload : BitVec 16) (acked : Bool := true)
  /-- OFFER_RECEIVED (R154): value and 1 payload byte. -/
  | offerReceived (value : BitVec 13) (payload : BitVec 8) (acked : Bool := true)
  /-- ACCEPT_RECEIVED (R149): value and 2 payload bytes. -/
  | acceptReceived (value : BitVec 13) (payload : BitVec 16) (acked : Bool := true)
  /-- CARRY_RECEIVED (R156): value and 9 payload bytes. -/
  | carryReceived (value : BitVec 13) (payload : BitVec 72) (acked : Bool := true)
  /-- OUTCOME_RECEIVED (R152): value and 3 payload bytes. -/
  | outcomeReceived (value : BitVec 13) (payload : BitVec 24) (acked : Bool := true)
  /-- STATE_RECEIVED (R159): value and 4 payload bytes. -/
  | stateReceived (value : BitVec 13) (payload : BitVec 32) (acked : Bool := true)
  /-- CLAIM_SENT (R104). -/
  | claimSent
  /-- OBJECT_SENT (R108). -/
  | objectSent
  /-- RELEASE_SENT (R113). -/
  | releaseSent
  /-- OFFER_SENT (R147). -/
  | offerSent
  /-- ACCEPT_SENT (R155). -/
  | acceptSent
  /-- CARRY_SENT (R150). -/
  | carrySent
  /-- OUTCOME_SENT (R157). -/
  | outcomeSent
  /-- STATE_SENT (R175). -/
  | stateSent
  /-- PENDING_GUARD_PASSES (R106) on one line. -/
  | pendingGuardPasses (k : LineId)
  /-- OWN_GUARD_PASSES (R104). -/
  | ownGuardPasses
  /-- YIELD_LIMIT_EXPIRY (R106) on one line. -/
  | yieldLimitExpiry (k : LineId)
  /-- YIELD_WAIT_EXPIRY (R112). -/
  | yieldWaitExpiry
  /-- OFFER_WINDOW_EXPIRY (R148). -/
  | offerWindowExpiry
  /-- ACCEPT_PENDING_TIMEOUT (R155). -/
  | acceptPendingTimeout
  /-- STATE_SPACING_EXPIRY (R175). -/
  | stateSpacingExpiry
  /-- WARM_TIME_REACHED (R162), with the fast oscillator's frequency in hertz at that moment (R161). -/
  | warmTimeReached (hertz : Nat)
  /-- OSCILLATOR_STEADY (R162). -/
  | oscillatorSteady
  /-- FAST_CLOCK_FAIL (R163). -/
  | fastClockFail
  /-- FAST_CLOCK_RELEASE (R164). -/
  | fastClockRelease
  /-- BARGE_CLEARING_END (R127). -/
  | bargeClearingEnd
  /-- DIAL_TONE_JUDGED (R128). -/
  | dialToneJudged
  /-- DIAL_TONE_WAIT_EXPIRY (R128). -/
  | dialToneWaitExpiry
  /-- DIGIT_END (R131). -/
  | digitEnd
  /-- TONE_CLASS_CHANGE (R121), with the frequencies in hertz now heard and how many milliseconds the period now
  ended had lasted, timed as R122 times it; and whether the generator, in a digit or a report block, is in the silence
  that follows a tone (R123). -/
  | toneClassChange (audio : List Nat) (ms : Nat) (silent : Bool := false)
  /-- TONE_GAP_LIMIT (R121), with how many milliseconds the tone's period had lasted when the gap began. -/
  | toneGapLimit (ms : Nat)
  /-- BUSY_PERIOD_LIMIT (R122). -/
  | busyPeriodLimit
  /-- BUSY_CADENCE (R122). -/
  | busyCadence
  /-- HANDSHAKE_JUDGED (R132). -/
  | handshakeJudged
  /-- HANDSHAKE_WAIT_EXPIRY (R132). -/
  | handshakeWaitExpiry
  /-- SETTLE_END (R132). -/
  | settleEnd
  /-- SEND_END (R133). -/
  | sendEnd
  /-- KISSOFF_JUDGED (R134). -/
  | kissoffJudged
  /-- KISSOFF_WAIT_EXPIRY (R136). -/
  | kissoffWaitExpiry
  /-- BETWEEN_MESSAGES_END (R135). -/
  | betweenMessagesEnd
  /-- LINE_LOST_TIMER_EXPIRY (R129). -/
  | lineLostTimerExpiry
  /-- HANG_UP_HOLD_END (R140). -/
  | hangUpHoldEnd
  /-- START_OF_FRAME_RECEIVED (R78). -/
  | startOfFrameReceived
  /-- ARBITRATION_LOST (R80), with the bits read since the start-of-frame bit, the last being the one that was lost. -/
  | arbitrationLost (read : List Bool := [])
deriving DecidableEq, Repr

end Sys2Proof
end

