-- ==== Sys2Proof/Decode.lean ====
section
/-! DEFINITION. The commands that a word spells by spec/opcode_table.json. The table gives bits to none of its rows
(98_reader.md: no row with fixed bits, none with fields), so no word spells a command. -/

namespace Sys2Proof

/-- No row of the table has bits, so no word spells a command (log entry 25). -/
def decodeTableWord (nbits w : Nat) : Option Instr :=
  match nbits, w with
  | _, _ => none

end Sys2Proof
end

