-- ==== Sys2Proof/Config.lean ====
section
/-! DEFINITION. The free values: what the manual leaves open while the station goes on. Each is a constant with no
body, read at the model's own counter `State.free`, so no proof can lean on a value of it. -/

namespace Sys2Proof.Config

/-- Who takes a record that is due for an offer and is the lead at the same moment: true for the Carry Unit, false
for the Call Engine. R146: "Either the Call Engine or the Carry Unit may take it first." (log entry 4) -/
opaque offerFirst : Nat → Bool

/-- In which order the events of lines that change trouble together reach the queue: at each pick, which of those
left goes next. R9: "their events reach the queue in either order." (log entry 5) -/
opaque eventOrder : Nat → Nat

end Sys2Proof.Config
end

