-- ==== Sys2Proof/Machine/State.lean ====
section
/-! DEFINITION. Everything the manual gives one station to hold, block by block (Table 0-1), as plain data, and the
state right after reset. INVENTORY.md lists every field with its rule and its reset value. -/

namespace Sys2Proof.Machine

/-- The station stops with no fault: the manual names no event at which an ND-316 stops, so this type has no
constructor (safe: nothing is hidden behind a fault). -/
inductive Fault where
deriving DecidableEq, Repr

/-- Why a command has no meaning in this model. -/
inductive Refusal where
  /-- Raised only by an arm of `exec` for a command without a meaning; no arm does. Safe. -/
  | notModelled (mnemonic : String)
deriving DecidableEq, Repr

/-! ### Chapter 1: the Zone Input Unit and the Station Event Sources -/

/-- The bands of Table 1-2, which are also the debounced states (R2, R3). -/
inductive Band where
  | short | active | normal | opened
deriving DecidableEq, Repr

/-- One zone as the ZIU holds it (Table 1-3). -/
structure Zone where
  band : Band
  run : Nat
  debounced : Band
  alarm : Bool
  trouble : Bool
deriving DecidableEq, Repr

/-- Table 1-3, "After reset". -/
def Zone.reset : Zone := ⟨.normal, 0, .normal, false, false⟩

/-- The Zone Input Unit with the Station Event Sources. -/
structure ZoneUnit where
  /-- sampling of zones has begun (R8) -/
  sampling : Bool
  zones : Eight Zone
  /-- the test timer: absent, or the seconds left (R13) -/
  testTimer : Option Nat
  /-- the bus trouble timer runs (R11) -/
  busTimer : Bool
  /-- the bus trouble condition (R11) -/
  busTrouble : Bool
deriving DecidableEq, Repr

/-- R8, R11, R13: no sampling, zones as Table 1-3, timers stopped, condition false. -/
def ZoneUnit.reset : ZoneUnit := ⟨false, Eight.const Zone.reset, none, false, false⟩

/-- The conditions an own record or event reports (Table 2-2). -/
inductive Condition where
  | alarm | trouble | line | overflow | comm | bus | periodic | start
deriving DecidableEq, Repr

/-- The qualifiers (section 1.1.4). -/
inductive Qualifier where
  | new | cleared | test
deriving DecidableEq, Repr

/-- An event: source, condition, qualifier and class (section 1.1.4). -/
structure Event where
  source : Nat
  condition : Condition
  qualifier : Qualifier
  cls : Nat
deriving DecidableEq, Repr

/-! ### Chapter 2: the Alert Queue -/

/-- The states of a record. The hand-off part of Table 2-2 is the data of OFFERED and HANDED: the handed time, and in
HANDED the carrier address (R22). -/
inductive RecState where
  | waiting
  | offered (handedTime : Nat)
  | handed (carrier : Nat) (handedTime : Nat)
  | inCall
deriving DecidableEq, Repr

/-- The fields only an own record has (Table 2-2). -/
structure OwnPart where
  seq : Byte
  condition : Condition
  created : Nat
  nextOffer : Nat
deriving DecidableEq, Repr

/-- The fields only a carried record has (Table 2-3). The account is six BCD digits, the first highest. -/
structure CarriedPart where
  origin : Nat
  originSeq : Byte
  account : BitVec 24
  wc : Nat
  accepted : Nat
  orphaned : Bool
deriving DecidableEq, Repr

/-- Own or carried (section 2.1). -/
inductive RecKind where
  | own (o : OwnPart)
  | carried (c : CarriedPart)
deriving DecidableEq, Repr

/-- A record of the queue (Tables 2-2 and 2-3). `second` is the number index: false 0 (primary), true 1. -/
structure Record where
  kind : RecKind
  source : Nat
  qualifier : Qualifier
  cls : Nat
  rep : Nat
  attempts : Nat
  notBefore : Nat
  second : Bool
  order : Nat
  state : RecState
deriving DecidableEq, Repr

/-- The Alert Queue (Table 2-1); the records stand in the order of their admission. -/
structure AlertQueue where
  records : List Record
  seqCounter : Byte
  admissions : Nat
  overflow : Bool
  queueOverflow : Bool
  commFail : Bool
deriving DecidableEq, Repr

/-- R39. -/
def AlertQueue.reset : AlertQueue := ⟨[], 0, 0, false, false, false⟩

/-! ### Chapters 4 and 6: the Line Coordinator -/

/-- The bands of a line sample (Table 4-2). -/
inductive LineBand where
  | onHook | offHook | noBattery
deriving DecidableEq, Repr

/-- A peer taken to be using a line, with its key (R61). -/
structure Holder where
  addr : Nat
  key : Nat
deriving DecidableEq, Repr

/-- A peer's claim heard but not yet a holder (R62): the guard timer has passed or still runs, and the yield limit
is absent or runs. -/
structure Pending where
  addr : Nat
  key : Nat
  guardPassed : Bool
  yieldLimit : Bool
deriving DecidableEq, Repr

/-- A timer that is absent, runs, or has passed its limit (the own guard timer, the all-dead timer, the warm timer). -/
inductive Timer where
  | absent | running | passed
deriving DecidableEq, Repr

/-- Where the candidate choice took a line from (Table 6-1); tier 4 by whose key is displaced (R99, R104). -/
inductive Tier where
  | free | office | troubled | overPending | overHolder
deriving DecidableEq, Repr

/-- One entry of the line view (Table 4-1). A sense or band of `none` is UNKNOWN or no band. `tier` is what R104 and
R117 ask of a claim after its placement (log entry 12). -/
structure Entry where
  wired : Bool
  band : Option LineBand
  run : Nat
  sense : Option LineBand
  deadTimer : Bool
  dead : Bool
  holder : Option Holder
  pending : Option Pending
  onHookTimer : Bool
  own : Bool
  ownKey : Option Nat
  barge : Bool
  ownGuard : Timer
  ownGuardDone : Bool
  tier : Option Tier
  failures : Nat
  occupancy : Nat
  trouble : Bool
deriving DecidableEq, Repr

/-- Table 4-1, "After reset" (R74). -/
def Entry.reset : Entry where
  wired := false
  band := none
  run := 0
  sense := none
  deadTimer := false
  dead := false
  holder := none
  pending := none
  onHookTimer := false
  own := false
  ownKey := none
  barge := false
  ownGuard := .absent
  ownGuardDone := false
  tier := none
  failures := 0
  occupancy := 0
  trouble := false

/-- The line view: four entries and the all-dead timer, passed while the station is all-dead (R58). -/
structure LineView where
  entries : Four Entry
  allDead : Timer
deriving DecidableEq, Repr

/-- R74. -/
def LineView.reset : LineView := ⟨Four.const Entry.reset, .absent⟩

/-! ### Chapter 5: the Riser Bus Controller -/

/-- Release reasons (Table 11-3). -/
inductive Reason where
  | done | preempted | failed | abandoned
deriving DecidableEq, Repr

/-- Outcome results (Table 11-3). -/
inductive Result where
  | delivered | returned
deriving DecidableEq, Repr

/-- An owed marker: a block's note of one frame it needs sent (section 5.7), with what its owner fixed when it was
owed (R44, R45, R49). -/
inductive Marker where
  | claim (k : LineId) (key : Nat) (barge : Bool)
  | object (k : LineId)
  | release (k : LineId) (reason : Reason)
  | offer (seq : Byte) (key : Nat)
  | accept (origin : Nat) (seq : Byte) (value : Nat)
  | carry (seq : Byte) (acceptor : Nat)
  | outcome (origin : Nat) (seq : Byte) (result : Result)
  | state
deriving DecidableEq, Repr

/-- The frame types, in the order of their codes (Table 5-1). -/
inductive FrameType where
  | object | release | claim | outcome | accept | offer | carry | state
deriving DecidableEq, Repr

/-- A frame's arbitration field and payload (R76, Table 11-2). -/
structure Frame where
  type : FrameType
  value : BitVec 13
  payload : List Byte
deriving DecidableEq, Repr

/-- A loaded transmit slot (section 5.7): whose marker it serves, its frame, its unacknowledged attempts, a held abort
request, and whether it is in transmission. -/
structure Slot where
  marker : Marker
  frame : Frame
  unacked : Nat
  abort : Bool
  sending : Bool
deriving DecidableEq, Repr

/-- The Riser Bus Controller. The slots that are not empty stand in the order in which they were loaded; `owed` holds
the markers in no slot in the order owed, but those of the outcome list. -/
structure Rbc where
  /-- the join period: absent before the Start-up Loader starts it, running, passed (R95) -/
  join : Timer
  txErrors : Nat
  rxErrors : Nat
  stuck : Bool
  recessiveRun : Nat
  dominantRun : Nat
  recovery : Nat
  suspend : Bool
  /-- a frame of another station is being received -/
  receiving : Bool
  slots : List Slot
  owed : List Marker
  /-- the bits of that frame already read, its start-of-frame bit aside: those of an attempt of this station's own that lost
  arbitration to it (R80) -/
  frameBits : List Bool
deriving DecidableEq, Repr

/-- R98, with no marker owed (R118, R145, R176). -/
def Rbc.reset : Rbc := ⟨.absent, 0, 0, false, 0, 0, 0, false, false, [], [], []⟩

/-! ### Chapter 7: the Call Engine and the tone detector -/

/-- Call Engine states (R124). -/
inductive CallState where
  | idle | claim | seize | dial | handshake | send | kissoff | hangup
deriving DecidableEq, Repr

/-- The state timer: which limit of Table 7-4 it runs toward. -/
inductive CallTimer where
  | bargeClearing | dialToneWait | digit | handshakeWait | settle | symbols | kissoffWait | betweenMessages | hold
deriving DecidableEq, Repr

/-- The outcomes of Table 7-6. -/
inductive CallOutcome where
  | done | preempted | noDialTone | lineLost | centreBusy | noHandshake | noKissoff | abandoned
deriving DecidableEq, Repr

/-- A digit of a centre number: 0 to 9, or a pause (R130). -/
inductive DialDigit where
  | digit (d : Nat)
  | pause
deriving DecidableEq, Repr

/-- The Call Engine (Table 7-3) with the outputs it drives (R119), the digits still to be dialled with the one in
progress first (R131), and the report block being sent (R133). Records are named by their admission order. -/
structure CallEngine where
  state : CallState
  line : Option LineId
  lead : Option Nat
  inHand : Option Nat
  batch : Nat
  sends : Nat
  guardDone : Bool
  fastReady : Bool
  yieldPending : Bool
  barge : Bool
  timer : Option CallTimer
  lineLost : Bool
  outcome : Option CallOutcome
  digits : List DialDigit
  block : List Nat
  hook : Four Bool
  seize : Four Bool
deriving DecidableEq, Repr

/-- Table 7-3, "After reset and at IDLE", every HOOK open and SEIZE released (R119). -/
def CallEngine.idle : CallEngine where
  state := .idle
  line := none
  lead := none
  inHand := none
  batch := 0
  sends := 0
  guardDone := false
  fastReady := false
  yieldPending := false
  barge := false
  timer := none
  lineLost := false
  outcome := none
  digits := []
  block := []
  hook := Four.const false
  seize := Four.const false

/-- Tone classes (Table 7-1). -/
inductive ToneClass where
  | dial | handshake | kissoff | none
deriving DecidableEq, Repr

/-- The tone detector (R121, R122): the class now held, the busy cycle count, and whether the DIAL period before the
NONE period now running lasted 200 ms to 600 ms. -/
structure Tone where
  cls : ToneClass
  busyCycles : Nat
  dialHalf : Bool
deriving DecidableEq, Repr

/-- Class NONE after reset (R121). That the busy cycle count is 0 there, with no DIAL half heard, is the model's choice,
since R122 sets the count only at entry to HANDSHAKE (log entry 34). -/
def Tone.reset : Tone := ⟨.none, 0, false⟩

/-! ### Chapter 8: the Carry Unit -/

/-- The phase of the outstanding offer (Table 8-1). -/
inductive OfferPhase where
  | owed
  | window
  | carrying (acceptor : Nat)
deriving DecidableEq, Repr

/-- The outstanding offer; the offer window timer runs exactly in phase WINDOW (R147 to R149). -/
structure Offer where
  seq : Byte
  key : Nat
  phase : OfferPhase
deriving DecidableEq, Repr

/-- The accept-pending marker with the ACCEPT value composed with it (R49, R154); its 2 s timer runs while it is
present. -/
structure AcceptPending where
  origin : Nat
  seq : Byte
  value : Nat
deriving DecidableEq, Repr

/-- An entry of the outcome list, and whether its frame is in a slot (R157). -/
structure OutcomeEntry where
  origin : Nat
  seq : Byte
  result : Result
  inSlot : Bool
deriving DecidableEq, Repr

/-- The Carry Unit (Table 8-1). -/
structure CarryUnit where
  offer : Option Offer
  accept : Option AcceptPending
  outcomes : List OutcomeEntry
deriving DecidableEq, Repr

/-- R145. -/
def CarryUnit.reset : CarryUnit := ⟨none, none, []⟩

/-! ### Chapter 9: the Clock Unit and the Start-up Loader -/

/-- Clock states (R161). -/
inductive ClockState where
  | quiet | warming | active
deriving DecidableEq, Repr

/-- The Clock Unit (R161). `warmTimer` is passed once the warm time has run; `steady` is what the oscillator check
last reported. -/
structure ClockUnit where
  state : ClockState
  latch : Bool
  warmTime : Nat
  warmTimer : Timer
  steady : Bool
  releaseTimer : Bool
deriving DecidableEq, Repr

/-- R161: QUIET, latch clear, both timers absent, warm time 40 ms. -/
def ClockUnit.reset : ClockUnit := ⟨.quiet, false, 40, .absent, false, false⟩

/-- One zone's settings (Table 1-1). -/
structure ZoneSettings where
  inUse : Bool
  restorals : Bool
  cls : Nat
  debounce : Nat
deriving DecidableEq, Repr

/-- The configuration as clamped and handed to the blocks (R169, Table 9-4), but the warm time, which the Clock Unit
holds, and the line set, which the entries hold. -/
structure Settings where
  account : BitVec 24
  number1 : List DialDigit
  number2 : List DialDigit
  zones : Eight ZoneSettings
  maxAttempts : Nat
  handOff : Nat
  lineThreshold : Nat
  testHours : Nat
  willing : Bool
deriving DecidableEq, Repr

/-- R168: no zone in use, the carry option clear, both numbers empty. The values the manual does not give are the
defaults of Table 9-4, an account of zeros and a test interval of 0 (log entry 7). -/
def Settings.reset : Settings where
  account := 0
  number1 := []
  number2 := []
  zones := Eight.const ⟨false, false, 0, 8⟩
  maxAttempts := 10
  handOff := 4
  lineThreshold := 3
  testHours := 0
  willing := false

/-- The Start-up Loader. -/
structure Loader where
  /-- the station is in reset (R165) -/
  inReset : Bool
  /-- the configuration read is in progress, CFGCS low (R167) -/
  reading : Bool
  strap : BitVec 4
  image : BitVec 416
  configFault : Bool
  /-- the configuration has verified: the start hold of FAULT has ended (R172) -/
  verified : Bool
  settings : Settings
deriving DecidableEq, Repr

/-- In reset, nothing read (log entry 8). -/
def Loader.reset : Loader := ⟨true, false, 0, 0, false, false, Settings.reset⟩

/-! ### Chapter 10: the Indication Unit -/

/-- The seven fault conditions of Table 10-1. -/
structure Faults where
  configFault : Bool
  addressClash : Bool
  fastClockFail : Bool
  commFail : Bool
  lineTrouble : Bool
  busTrouble : Bool
  queueOverflow : Bool
deriving DecidableEq, Repr

/-- The line summary values (Table 4-5). -/
inductive Summary where
  | notWired | usable | trouble | dead
deriving DecidableEq, Repr

/-- The reported items of R175: the fault summary, the queue's emptiness, the line summary. -/
structure Reported where
  faults : Faults
  queueEmpty : Bool
  lines : Four Summary
deriving DecidableEq, Repr

/-- The Indication Unit (R174 to R176). -/
structure Indication where
  addressClash : Bool
  stateOwed : Bool
  freshMark : Bool
  last : Option Reported
  spacing : Bool
deriving DecidableEq, Repr

/-- R176, "After reset". -/
def Indication.reset : Indication := ⟨false, false, false, none, false⟩

/-! ### The station -/

/-- The whole station. `pending` is the queue of the commands that wait, first in, first out; `free` is the model's
own counter at which the free values of Config are read (log entry 24). -/
structure State where
  loader : Loader
  time : Nat
  zone : ZoneUnit
  queue : AlertQueue
  view : LineView
  rbc : Rbc
  call : CallEngine
  tone : Tone
  carry : CarryUnit
  clock : ClockUnit
  ind : Indication
  free : Nat
  pending : List Instr
deriving DecidableEq, Repr

/-- The station in reset: every block at the values its chapter gives (R165; R8, R39, R74, R98, R118, R124, R145,
R161, R176). -/
def State.reset : State where
  loader := Loader.reset
  time := 0
  zone := ZoneUnit.reset
  queue := AlertQueue.reset
  view := LineView.reset
  rbc := Rbc.reset
  call := CallEngine.idle
  tone := Tone.reset
  carry := CarryUnit.reset
  clock := ClockUnit.reset
  ind := Indication.reset
  free := 0
  pending := []

end Sys2Proof.Machine
end

