-- ==== Sys2Proof/Machine/Operands.lean ====
section
/-! DEFINITION. How the station reads what the outside world brings: loop and line measurements into bands, audio into
tone classes, the oscillator against its check, the fields of a received frame with the ranges of Table 5-5, and the
fields of the configuration image. -/

namespace Sys2Proof.Machine

/-! ### Measurements -/

/-- The band of a loop by its ratio to the end-of-line value; a boundary belongs to the band above (R2, Table 1-2). -/
def loopBand (m : LoopMeasure) : Band :=
  if 10 * m.loop < m.eol then .short
  else if 10 * m.loop < 7 * m.eol then .active
  else if 10 * m.loop < 15 * m.eol then .normal
  else .opened

/-- The band of a line voltage in millivolts, of either polarity; a boundary belongs to the higher band (R55,
Table 4-2). -/
def lineBand (millivolts : Int) : LineBand :=
  if 20000 ≤ millivolts.natAbs then .onHook
  else if 3000 ≤ millivolts.natAbs then .offHook
  else .noBattery

/-- Within a percentage of a nominal frequency. -/
def within (percent nominal hertz : Nat) : Bool :=
  decide (100 * nominal ≤ 100 * hertz + percent * nominal ∧ 100 * hertz ≤ 100 * nominal + percent * nominal)

/-- The class of the received audio, given as the frequencies in it: all in 300 Hz to 500 Hz, or one tone within 2 %
of 1560 Hz or of 2030 Hz (R121, Table 7-1). -/
def toneClass (audio : List Nat) : ToneClass :=
  match audio with
  | [] => .none
  | f :: rest =>
    if (f :: rest).all fun g => decide (300 ≤ g ∧ g ≤ 500) then .dial
    else if rest = [] ∧ within 2 1560 f then .handshake
    else if rest = [] ∧ within 2 2030 f then .kissoff
    else .none

/-- The oscillator check: within 1 % of 3.579545 MHz (R161). -/
def oscillatorCheck (hertz : Nat) : Bool := within 1 3579545 hertz

/-! ### Fields of a frame (Tables 11-1 to 11-3)

Payload byte 0 is sent first and stands highest. Bits that Table 11-2 marks ignored are not read (R177). -/

/-- Byte i of a payload, as a number. -/
def payloadByte {w : Nat} (p : BitVec w) (i : Nat) : Nat := p.toNat / 2 ^ (w - 8 * (i + 1)) % 256

/-- The sender's address: the low four bits of the value (R76). -/
def senderOf (value : BitVec 13) : Nat := value.toNat % 16

/-- A code of Table 11-3 for a release reason. -/
def reasonOf : Nat → Option Reason
  | 1 => some .done
  | 2 => some .preempted
  | 3 => some .failed
  | 4 => some .abandoned
  | _ => none

/-- A code of Table 11-3 for an outcome result. -/
def resultOf : Nat → Option Result
  | 1 => some .delivered
  | 2 => some .returned
  | _ => none

/-- A code of Table 11-3 for a qualifier. -/
def qualifierOf : Nat → Option Qualifier
  | 1 => some .new
  | 2 => some .cleared
  | 3 => some .test
  | _ => none

/-- What a CLAIM or an OBJECT says: who, with which key, of which line. -/
structure ClaimFields where
  addr : Nat
  key : Nat
  line : LineId
deriving DecidableEq, Repr

/-- A CLAIM in range (Table 5-5). Its barge flag concerns no receiver: every code of it is in range and no rule reads
it at receipt (R105, R177). -/
def readClaim (value : BitVec 13) (payload : BitVec 8) : Option ClaimFields :=
  match LineId.ofIndex (payloadByte payload 0 % 16) with
  | some k => if senderOf value ≠ 0 ∧ value.toNat < 7168 then some ⟨senderOf value, value.toNat, k⟩ else none
  | none => none

/-- An OBJECT in range; its phase must be a defined code and is not read further (R107, Table 5-5). -/
def readObject (value : BitVec 13) (payload : BitVec 16) : Option ClaimFields :=
  match LineId.ofIndex (payloadByte payload 0 % 16) with
  | some k =>
    if senderOf value ≠ 0 ∧ value.toNat < 7168 ∧ (payloadByte payload 1 = 1 ∨ payloadByte payload 1 = 2) then
      some ⟨senderOf value, value.toNat, k⟩
    else none
  | none => none

/-- What a RELEASE says. -/
structure ReleaseFields where
  addr : Nat
  line : LineId
  reason : Reason
deriving DecidableEq, Repr

/-- The value of a RELEASE, OUTCOME, CARRY or STATE is the sender's address alone, 1 to 15 (R76, Table 5-5). -/
def plainValue (value : BitVec 13) : Bool := decide (senderOf value ≠ 0 ∧ value.toNat ≤ 15)

/-- A RELEASE in range (Table 5-5). -/
def readRelease (value : BitVec 13) (payload : BitVec 16) : Option ReleaseFields :=
  match LineId.ofIndex (payloadByte payload 0 % 16), reasonOf (payloadByte payload 1) with
  | some k, some r => if plainValue value then some ⟨senderOf value, k, r⟩ else none
  | _, _ => none

/-- What an OFFER says: the origin and the offered record's sequence number. -/
structure OfferFields where
  origin : Nat
  seq : Byte
deriving DecidableEq, Repr

/-- An OFFER in range (Table 5-5). -/
def readOffer (value : BitVec 13) (payload : BitVec 8) : Option OfferFields :=
  if senderOf value ≠ 0 ∧ value.toNat < 7168 then some ⟨senderOf value, payload⟩ else none

/-- What an ACCEPT says: the bidder, and the record it bids for. -/
structure AcceptFields where
  sender : Nat
  origin : Nat
  seq : Byte
deriving DecidableEq, Repr

/-- An ACCEPT in range (Table 5-5). -/
def readAccept (value : BitVec 13) (payload : BitVec 16) : Option AcceptFields :=
  if senderOf value ≠ 0 ∧ value.toNat ≤ 1023 ∧ payloadByte payload 0 % 16 ≠ 0 then
    some ⟨senderOf value, payloadByte payload 0 % 16, BitVec.ofNat 8 (payloadByte payload 1)⟩
  else none

/-- What a CARRY says (Table 11-2). -/
structure CarryFields where
  origin : Nat
  acceptor : Nat
  seq : Byte
  account : BitVec 24
  cls : Nat
  qualifier : Qualifier
  source : Nat
  rep : Nat
  grade : Nat
deriving DecidableEq, Repr

/-- Digit i of an account of six BCD digits, the first highest. -/
def accountDigit (account : BitVec 24) (i : Nat) : Nat := account.toNat / 16 ^ (5 - i) % 16

/-- The six digits of an account in order. -/
def accountDigits (account : BitVec 24) : List Nat := (List.range 6).map (accountDigit account)

/-- Every digit of an account is 0 to 9. -/
def accountDecimal (account : BitVec 24) : Bool := (accountDigits account).all fun d => decide (d ≤ 9)

/-- The account field of a CARRY: bytes 2 to 4. -/
def carryAccount (payload : BitVec 72) : BitVec 24 :=
  BitVec.ofNat 24 (payloadByte payload 2 * 65536 + payloadByte payload 3 * 256 + payloadByte payload 4)

/-- A CARRY in range (Table 5-5, R42, R52). -/
def readCarry (value : BitVec 13) (payload : BitVec 72) : Option CarryFields :=
  match qualifierOf (payloadByte payload 5 % 16) with
  | some q =>
    if plainValue value ∧ payloadByte payload 0 % 16 ≠ 0 ∧ accountDecimal (carryAccount payload)
        ∧ payloadByte payload 5 / 16 ≤ 6 ∧ 1 ≤ payloadByte payload 6 ∧ payloadByte payload 6 ≤ 99
        ∧ payloadByte payload 7 ≤ 9 ∧ payloadByte payload 8 ≤ 31 then
      some { origin := senderOf value, acceptor := payloadByte payload 0 % 16,
             seq := BitVec.ofNat 8 (payloadByte payload 1), account := carryAccount payload,
             cls := payloadByte payload 5 / 16, qualifier := q, source := payloadByte payload 6,
             rep := payloadByte payload 7, grade := payloadByte payload 8 }
    else none
  | none => none

/-- What an OUTCOME says. -/
structure OutcomeFields where
  sender : Nat
  origin : Nat
  seq : Byte
  result : Result
deriving DecidableEq, Repr

/-- An OUTCOME in range (Table 5-5). -/
def readOutcome (value : BitVec 13) (payload : BitVec 24) : Option OutcomeFields :=
  match resultOf (payloadByte payload 2) with
  | some r =>
    if plainValue value ∧ payloadByte payload 0 % 16 ≠ 0 then
      some ⟨senderOf value, payloadByte payload 0 % 16, BitVec.ofNat 8 (payloadByte payload 1), r⟩
    else none
  | none => none

/-- What the Carry Unit reads of a STATE: its sender and the fresh-start mark (R159). -/
structure StateFields where
  sender : Nat
  fresh : Bool
deriving DecidableEq, Repr

/-- A STATE in range (Table 5-5). -/
def readState (value : BitVec 13) (payload : BitVec 32) : Option StateFields :=
  if plainValue value ∧ payloadByte payload 1 ≤ 24 ∧ payloadByte payload 2 ≤ 8
      ∧ payloadByte payload 2 ≤ payloadByte payload 1 then
    some ⟨senderOf value, decide (128 ≤ payloadByte payload 0)⟩
  else none

/-! ### Fields of the configuration image (R179, Table 11-5) -/

/-- Byte i of the image. -/
def imageByte (image : BitVec 416) (i : Nat) : Nat := payloadByte image i

/-- The account of bytes 2 to 4. -/
def imageAccount (image : BitVec 416) : BitVec 24 :=
  BitVec.ofNat 24 (imageByte image 2 * 65536 + imageByte image 3 * 256 + imageByte image 4)

/-- The sum of bytes 0 to 49 modulo 65536. -/
def imageSum (image : BitVec 416) : Nat := ((List.range 50).map (imageByte image)).sum % 65536

/-- The image verifies: mark, decimal account, sum high byte first (R168). -/
def imageVerifies (image : BitVec 416) : Bool :=
  decide (imageByte image 0 = 0xA5) && decide (imageByte image 1 = 0x3C) && accountDecimal (imageAccount image)
    && decide (imageSum image = imageByte image 50 * 256 + imageByte image 51)

/-- A field brought into its range: 0 takes the default, any other value the nearer end (R169, Table 9-4). -/
def clampField (default low high v : Nat) : Nat :=
  if v = 0 then default else if v < low then low else if high < v then high else v

/-- Digit i of a number whose first digit byte is `first`: two to a byte, the high half first (R179). -/
def imageDigit (image : BitVec 416) (first i : Nat) : Nat :=
  if i % 2 = 0 then imageByte image (first + i / 2) / 16 else imageByte image (first + i / 2) % 16

/-- The digits of a list of codes up to the first code that is neither 0 to 9 nor Ah (R169). -/
def digitsOf : List Nat → List DialDigit
  | [] => []
  | d :: rest => if d ≤ 9 then .digit d :: digitsOf rest else if d = 10 then .pause :: digitsOf rest else []

/-- A number of the image: its length byte, taken as 20 above 20, then its digits (R169, R179). -/
def imageNumber (image : BitVec 416) (lengthAt : Nat) : List DialDigit :=
  digitsOf ((List.range (min 20 (imageByte image lengthAt))).map (imageDigit image (lengthAt + 1)))

/-- The settings of zone n from its two bytes (R179; a class of 4 to 7 becomes 3, R169). -/
def imageZone (image : BitVec 416) (z : ZoneId) : ZoneSettings where
  inUse := decide (128 ≤ imageByte image (28 + 2 * (z.number - 1)))
  restorals := decide (imageByte image (28 + 2 * (z.number - 1)) / 64 % 2 = 1)
  cls := min 3 (imageByte image (28 + 2 * (z.number - 1)) % 8)
  debounce := clampField 8 2 64 (imageByte image (29 + 2 * (z.number - 1)))

/-- M of the image. -/
def imageMaxAttempts (image : BitVec 416) : Nat := clampField 10 4 15 (imageByte image 44)

/-- The clamped settings of a verified image (R169): H is brought to at most M − 1. -/
def imageSettings (image : BitVec 416) : Settings where
  account := imageAccount image
  number1 := imageNumber image 5
  number2 := imageNumber image 16
  zones := Eight.ofZone (imageZone image)
  maxAttempts := imageMaxAttempts image
  handOff := min (clampField 4 2 8 (imageByte image 45)) (imageMaxAttempts image - 1)
  lineThreshold := clampField 3 1 7 (imageByte image 46)
  testHours := min 168 (imageByte image 47)
  willing := decide (imageByte image 49 % 2 = 1)

/-- Whether the line set of the image wires a line (byte 27, bit k; R54). -/
def imageWires (image : BitVec 416) (k : LineId) : Bool := decide (imageByte image 27 / 2 ^ k.index % 2 = 1)

/-- The warm time of the image in milliseconds (R169). -/
def imageWarmTime (image : BitVec 416) : Nat := clampField 40 10 80 (imageByte image 48)

/-- What the Start-up Loader sends before the 52 bytes are clocked in: the read instruction and address 0 (R167). -/
def configReadHeader : List Byte := [0x03, 0x00, 0x00]

/-- The bits of the whole transfer (R167). -/
def configReadBits : Nat := 8 * configReadHeader.length + 8 * 52

end Sys2Proof.Machine
end

