-- ==== Sys2Proof/Machine/Keys.lean ====
section
/-! DEFINITION. The arithmetic of Chapter 3: wait grade, claim key, pre-emption test, occupancy, line score, ACCEPT
value, retry gap, report block and check digit. -/

namespace Sys2Proof.Machine

/-- The whole 20-second periods since a stored time (R41, R42). -/
def periodsSince (now start : Nat) : Nat := (now - start) / 20

/-- The wait grade W of a record at a station time: 31, or Wc, less the 20-second periods, and never less than 0
(R41, R42). -/
def Record.grade (now : Nat) (r : Record) : Nat :=
  match r.kind with
  | .own o => 31 - periodsSince now o.created
  | .carried c => c.wc - periodsSince now c.accepted

/-- The origin term O: 0 for a carried record, 1 for an own one (R43). -/
def Record.originTerm (r : Record) : Nat :=
  match r.kind with
  | .own _ => 1
  | .carried _ => 0

/-- A claim key from its four parts (R43). -/
def composeKey (cls grade originTerm addr : Nat) : Nat := 1024 * cls + 32 * grade + 16 * originTerm + addr

/-- The key of a record at a moment, composed at a station (R43 to R45). -/
def Record.key (now addr : Nat) (r : Record) : Nat := composeKey r.cls (r.grade now) r.originTerm addr

/-- The class part of a key (Table 3-3). -/
def keyClass (key : Nat) : Nat := key / 1024

/-- Whether a claimant's key qualifies to pre-empt another: its class plus 2 is at most the other's class (R46). -/
def qualifies (claimant displaced : Nat) : Bool := decide (keyClass claimant + 2 ≤ keyClass displaced)

/-- U after a tick: up 3 to at most 60 in OFFICE, else down 1 to at least 0 (R47). -/
def occupancyAfter (inOffice : Bool) (u : Nat) : Nat := if inOffice then min 60 (u + 3) else u - 1

/-- The line score S: 8 F plus the whole 4s of U, at most 63 (R48). -/
def lineScore (failures occupancy : Nat) : Nat := min 63 (8 * failures + occupancy / 4)

/-- The value of an ACCEPT from the lowest score and the address (R49). -/
def acceptValue (score addr : Nat) : Nat := 16 * score + addr

/-- The retry gap in seconds by the attempts after they were raised and the class (R50, Table 3-7). -/
def retryGap (attempts cls : Nat) : Nat :=
  if attempts ≤ 2 then (if cls ≤ 1 then 7 else 15)
  else if attempts ≤ 4 then (if cls ≤ 1 then 22 else 45)
  else (if cls ≤ 1 then 45 else 90)

/-- The gap after a line-caused failure (R51). -/
def lineGap : Nat := 5

/-- The symbol of a qualifier: A, B or C (R52). -/
def qualifierSymbol : Qualifier → Nat
  | .new => 10
  | .cleared => 11
  | .test => 12

/-- The sum of symbols weighted 3 and 1 in turn, weight 3 first (R53). -/
def weightedSum : List Nat → Nat
  | [] => 0
  | [a] => 3 * a
  | a :: b :: rest => 3 * a + b + weightedSum rest

/-- The check digit over the first 14 symbols: 13 less the remainder of the sum, 13 taken as 0 (R53). -/
def checkDigit (symbols : List Nat) : Nat := (13 - weightedSum symbols % 13) % 13

/-- The first 14 symbols of a report block: account, class, qualifier, source, repeat, relay digit, sequence digits
(R52, Table 11-4). -/
def blockSymbols (account : BitVec 24) (r : Record) (relay seq : Nat) : List Nat :=
  accountDigits account ++
    [r.cls, qualifierSymbol r.qualifier, r.source / 10, r.source % 10, r.rep, relay, seq % 100 / 10, seq % 100 % 10]

/-- The fourteen symbols of a record at a station with an account: its own records under that account with relay digit
0, a carried one under its origin's account and sequence number with relay digit 1 (R52). -/
def Record.symbols (account : BitVec 24) (r : Record) : List Nat :=
  match r.kind with
  | .own o => blockSymbols account r 0 o.seq.toNat
  | .carried c => blockSymbols c.account r 1 c.originSeq.toNat

/-- The fifteen symbols of the report block (R178). -/
def Record.block (account : BitVec 24) (r : Record) : List Nat :=
  r.symbols account ++ [checkDigit (r.symbols account)]

/-- The two tones in hertz of a DTMF symbol, 10 to 12 for A to C (Table 7-2, R123). -/
def dtmfTones : Nat → Option (Nat × Nat)
  | 0 => some (941, 1336)
  | 1 => some (697, 1209)
  | 2 => some (697, 1336)
  | 3 => some (697, 1477)
  | 4 => some (770, 1209)
  | 5 => some (770, 1336)
  | 6 => some (770, 1477)
  | 7 => some (852, 1209)
  | 8 => some (852, 1336)
  | 9 => some (852, 1477)
  | 10 => some (697, 1633)
  | 11 => some (770, 1633)
  | 12 => some (852, 1633)
  | _ => none

/-- Milliseconds to dial a number: 120 a digit, 2000 a pause (R123, R131). -/
def dialTime : List DialDigit → Nat
  | [] => 0
  | .digit _ :: rest => 120 + dialTime rest
  | .pause :: rest => 2000 + dialTime rest

end Sys2Proof.Machine
end

