-- ==== Sys2Proof/Machine/Wire.lean ====
section
/-! DEFINITION. Frames as bits: type codes, the arbitration field, payloads as they are composed, the CRC, the inserted
bits, and the whole frame on the wire (Chapter 5, Chapter 11). -/

namespace Sys2Proof.Machine

/-- The type code (Table 5-1). -/
def FrameType.code : FrameType → Nat
  | .object => 0
  | .release => 1
  | .claim => 2
  | .outcome => 3
  | .accept => 4
  | .offer => 5
  | .carry => 6
  | .state => 7

/-- The payload bytes of a type (Table 5-1). -/
def FrameType.payloadLength : FrameType → Nat
  | .object => 2
  | .release => 2
  | .claim => 1
  | .outcome => 3
  | .accept => 2
  | .offer => 1
  | .carry => 9
  | .state => 4

/-- The 16 bits of the arbitration field as a number: type code, then value (Table 11-1). The lower wins (R80). -/
def Frame.arbitration (f : Frame) : Nat := f.type.code * 8192 + f.value.toNat

/-! ### Payloads as composed (Table 11-2, R177) -/

/-- A payload byte of a number. -/
def byte (n : Nat) : Byte := BitVec.ofNat 8 n

/-- Table 11-3. -/
def Reason.code : Reason → Nat
  | .done => 1
  | .preempted => 2
  | .failed => 3
  | .abandoned => 4

/-- Table 11-3. -/
def Result.code : Result → Nat
  | .delivered => 1
  | .returned => 2

/-- Table 11-3. -/
def Qualifier.code : Qualifier → Nat
  | .new => 1
  | .cleared => 2
  | .test => 3

/-- Table 11-3. -/
def Summary.code : Summary → Nat
  | .notWired => 0
  | .usable => 1
  | .trouble => 2
  | .dead => 3

/-- One flag bit of a byte. -/
def flagBit (weight : Nat) (b : Bool) : Nat := if b then weight else 0

/-- A CLAIM: value the own key, payload the line and the barge flag (R101). -/
def claimFrame (key : Nat) (k : LineId) (barge : Bool) : Frame :=
  ⟨.claim, BitVec.ofNat 13 key, [byte (flagBit 128 barge + k.index)]⟩

/-- An OBJECT: value the own key, payload the line and the phase, HOLDING once own-guard-done is set (R107). -/
def objectFrame (key : Nat) (k : LineId) (holding : Bool) : Frame :=
  ⟨.object, BitVec.ofNat 13 key, [byte k.index, byte (if holding then 2 else 1)]⟩

/-- A RELEASE: value the address, payload the line and the reason (R113). -/
def releaseFrame (addr : Nat) (k : LineId) (reason : Reason) : Frame :=
  ⟨.release, BitVec.ofNat 13 addr, [byte k.index, byte reason.code]⟩

/-- An OFFER: value its key, payload the seq (R147). -/
def offerFrame (key : Nat) (seq : Byte) : Frame := ⟨.offer, BitVec.ofNat 13 key, [seq]⟩

/-- An ACCEPT: its value, payload the origin and its seq (R154). -/
def acceptFrame (value origin : Nat) (seq : Byte) : Frame := ⟨.accept, BitVec.ofNat 13 value, [byte origin, seq]⟩

/-- A CARRY of an own record at a moment (R150, R42). -/
def carryFrame (now addr acceptor : Nat) (account : BitVec 24) (seq : Byte) (r : Record) : Frame :=
  ⟨.carry, BitVec.ofNat 13 addr,
   [byte acceptor, seq, byte (account.toNat / 65536), byte (account.toNat / 256), byte account.toNat,
    byte (16 * r.cls + r.qualifier.code), byte r.source, byte r.rep, byte (r.grade now)]⟩

/-- An OUTCOME (R157). -/
def outcomeFrame (addr origin : Nat) (seq : Byte) (result : Result) : Frame :=
  ⟨.outcome, BitVec.ofNat 13 addr, [byte origin, seq, byte result.code]⟩

/-- The flags byte of a STATE (Table 11-3). -/
def stateFlags (fresh : Bool) (f : Faults) : Nat :=
  flagBit 128 fresh + flagBit 64 f.configFault + flagBit 32 f.addressClash + flagBit 16 f.fastClockFail
    + flagBit 8 f.commFail + flagBit 4 f.lineTrouble + flagBit 2 f.busTrouble + flagBit 1 f.queueOverflow

/-- The line summary byte of a STATE, L3 highest (Table 11-2). -/
def summaryByte (l : Four Summary) : Nat :=
  64 * l.l3.code + 16 * l.l2.code + 4 * l.l1.code + l.l0.code

/-- A STATE (R176). -/
def stateFrame (addr : Nat) (fresh : Bool) (f : Faults) (queueCount carriedCount : Nat) (l : Four Summary) : Frame :=
  ⟨.state, BitVec.ofNat 13 addr, [byte (stateFlags fresh f), byte queueCount, byte carriedCount, byte (summaryByte l)]⟩

/-- A STATE frame that carries the fresh-start mark: bit 7 of its flags (Table 11-3). -/
def Frame.fresh (f : Frame) : Bool :=
  match f.payload with
  | b :: _ => decide (128 ≤ b.toNat)
  | [] => false

/-! ### The frame on the wire -/

/-- The lowest n bits of a number, most significant first; true is recessive (R75, R76). -/
def bitsOf : Nat → Nat → List Bool
  | 0, _ => []
  | n + 1, v => decide (v / 2 ^ n % 2 = 1) :: bitsOf n v

/-- One step of the division by x^8 + x^2 + x + 1, the next bit of the dividend shifted in (R76). -/
def crcStep (remainder : BitVec 8) (b : Bool) : BitVec 8 :=
  if remainder.msb then ((remainder <<< 1) ||| (if b then 1 else 0)) ^^^ 0x07
  else (remainder <<< 1) ||| (if b then 1 else 0)

/-- The remainder of the bits followed by eight 0 bits, from a remainder of 0 (R76). -/
def crc (bits : List Bool) : BitVec 8 := (bits ++ List.replicate 8 false).foldl crcStep 0

/-- The bits of the arbitration field and the payload (R76). -/
def Frame.body (f : Frame) : List Bool :=
  bitsOf 16 f.arbitration ++ (f.payload.map fun b => bitsOf 8 b.toNat).flatten

/-- The stuffed region before insertion: start of frame, arbitration field, payload, CRC (R76). -/
def Frame.region (f : Frame) : List Bool := false :: f.body ++ bitsOf 8 (crc f.body).toNat

/-- Insertion after every run of six equal bits, going on from a run of `run` bits equal to `last`; the inserted bit is
the complement and counts as the first bit of the next run (R77). -/
def stuffFrom (last : Bool) (run : Nat) : List Bool → List Bool
  | [] => []
  | b :: rest =>
    if b = last then
      if run = 5 then b :: (!b) :: stuffFrom (!b) 1 rest else b :: stuffFrom b (run + 1) rest
    else b :: stuffFrom b 1 rest

/-- Insertion over a whole region (R77). -/
def stuff (bits : List Bool) : List Bool := stuffFrom true 0 bits

/-- Removal of each bit that follows six equal bits, going on from a run; none where it equals the run, the FORM error
of seven equal bits (R77, R83). The region is read to the end of `bits`. -/
def unstuffFrom (last : Bool) (run : Nat) : List Bool → Option (List Bool)
  | [] => some []
  | b :: rest =>
    if run = 6 then
      if b = last then none else unstuffFrom b 1 rest
    else if b = last then (unstuffFrom b (run + 1) rest).map (b :: ·)
    else (unstuffFrom b 1 rest).map (b :: ·)

/-- Removal of the inserted bits of a region (R77). -/
def unstuff (bits : List Bool) : Option (List Bool) := unstuffFrom true 0 bits

/-- All the bits a transmitter sends: the stuffed region, then a recessive ACK slot, the ACK delimiter and the eight
bits of the end field, with nothing inserted (R76, R77, R81). -/
def Frame.sentBits (f : Frame) : List Bool := stuff f.region ++ List.replicate 10 true

/-- The recessive bits with which a frame ends whose ACK slot is recessive. -/
def Frame.lastRecessives (f : Frame) : Nat := (f.sentBits.reverse.takeWhile fun bit => bit).length

/-! ### What a transmitter reads back of its own frame (R75, R80, R83)

`read` is what it has read since its start-of-frame bit; it reads back what it sends until an attempt is lost. -/

/-- The stuffed region after the start-of-frame bit. -/
def Frame.afterStart (f : Frame) : List Bool := (stuff f.region).tail

/-- How many bits of that are of the arbitration field, the inserted ones counted (R76, R77, R80; log entry 6). -/
def Frame.arbitrationBits (f : Frame) : Nat := (stuff (f.region.take 17)).length - 1

/-- The last bit read, within the stuffed region, is the first that differs from the bit sent. -/
def Frame.differs (f : Frame) (read : List Bool) : Bool :=
  decide (1 ≤ read.length ∧ read.length ≤ f.afterStart.length)
    && decide (read.dropLast = f.afterStart.take (read.length - 1))
    && decide (read.getLast? ≠ f.afterStart[read.length - 1]?)

/-- Arbitration is lost: in the arbitration field a bit sent recessive reads dominant (R80). -/
def Frame.lostBy (f : Frame) (read : List Bool) : Bool :=
  f.differs read && decide (read.length ≤ f.arbitrationBits) && decide (read.getLast? = some false)

/-- The stuffed region read back as sent, with an ACK slot of a level, and what was read after it. -/
def Frame.afterAck (f : Frame) (slot : Bool) (read : List Bool) : Option (List Bool) :=
  if read.take (f.afterStart.length + 1) = f.afterStart ++ [slot] then some (read.drop (f.afterStart.length + 1))
  else none

/-- A dominant bit in the ACK delimiter or the end field of an acknowledged attempt, after recessive ones (Table 5-3). -/
def Frame.endBroken (f : Frame) (read : List Bool) : Bool :=
  match f.afterAck false read with
  | some rest => decide (rest.length ≤ 9 ∧ rest.getLast? = some false) && rest.dropLast.all fun bit => bit
  | none => false

/-- A recessive ACK slot. An active station's attempt ends there; a passive one's nine bits later (R84, R85). -/
def Frame.unheardBy (f : Frame) (active : Bool) (read : List Bool) : Bool :=
  match f.afterAck true read with
  | some rest => decide (rest.length = if active then 0 else 9)
  | none => false

/-! ### What a receiver reads of a frame (R76, R77, R81, R83)

It reads bit by bit after the start-of-frame bit, with each inserted bit removed, and knows where it stands from the type. -/

/-- The type of three bits, most significant first (Table 5-1). -/
def FrameType.ofBits : Bool → Bool → Bool → FrameType
  | false, false, false => .object
  | false, false, true => .release
  | false, true, false => .claim
  | false, true, true => .outcome
  | true, false, false => .accept
  | true, false, true => .offer
  | true, true, false => .carry
  | true, true, true => .state

/-- The bits kept, from the start-of-frame bit, are a whole stuffed region before insertion: 25 + 8 P (R76). -/
def regionWhole : List Bool → Bool
  | start :: a :: b :: c :: rest =>
    decide ((start :: a :: b :: c :: rest).length = 25 + 8 * (FrameType.ofBits a b c).payloadLength)
  | _ => false

/-- The CRC worked over the arbitration field and the payload of a whole region is the one received (R76, Table 5-3). -/
def crcRight (kept : List Bool) : Bool :=
  decide (kept.drop (kept.length - 8) = bitsOf 8 (crc ((kept.take (kept.length - 8)).tail)).toNat)

/-- Where a receiver stands in a frame. -/
inductive Reader where
  /-- in the stuffed region: the bits kept, and the run of equal bits that the wire stands in, inserted bits counted -/
  | region (kept : List Bool) (last : Bool) (run : Nat)
  /-- the next bit is the ACK slot; the CRC is right or not -/
  | ackSlot (right : Bool)
  /-- so many bits of the ACK delimiter and the end field are still to come -/
  | ending (left : Nat)
  /-- the last bit read showed an error -/
  | failed (kind : ErrorKind)
  /-- the frame has ended, or an error was found in it before: no further part is taken in it (R83) -/
  | done
deriving DecidableEq, Repr

namespace Reader

/-- Right after the start-of-frame bit, which begins a dominant run (R76, R77). -/
def start : Reader := .region [false] false 1

/-- In the region until it is whole, and with a run of six at its end until the bit inserted after it is read (R77). -/
def within (kept : List Bool) (last : Bool) (run : Nat) : Reader :=
  if regionWhole kept && decide (run ≠ 6) then .ackSlot (crcRight kept) else .region kept last run

/-- One bit read: after six equal bits the inserted one, dropped, or a seventh, a FORM error; at the ACK slot the CHECK
error of a CRC that is wrong; after it nine bits, of which a dominant one is a FORM error (R77, R81, Table 5-3). -/
def read (bit : Bool) : Reader → Reader
  | .region kept last run =>
    if run = 6 then if bit = last then .failed .form else within kept bit 1
    else within (kept ++ [bit]) bit (if bit = last then run + 1 else 1)
  | .ackSlot right => if right then .ending 9 else .failed .check
  | .ending left => if !bit then .failed .form else if left ≤ 1 then .done else .ending (left - 1)
  | .failed _ => .done
  | .done => .done

/-- The bits of a frame read in order, from the one after its start-of-frame bit. -/
def after (bits : List Bool) : Reader := bits.foldl (fun r bit => r.read bit) start

end Reader

/-- A frame of a type as it is received. -/
def receivedFrame {w : Nat} (type : FrameType) (value : BitVec 13) (payload : BitVec w) : Frame :=
  ⟨type, value, (List.range type.payloadLength).map fun i => byte (payloadByte payload i)⟩

end Sys2Proof.Machine
end

