-- ==== Sys2Proof/Machine/Bus.lean ====
section
/-! DEFINITION. The Riser Bus Controller's own operations (Chapter 5): confinement, error counters, run counts, and the
transmit slots. -/

namespace Sys2Proof.Machine

/-- Confinement states (R88). -/
inductive Confinement where
  | active | passive | busOff
deriving DecidableEq, Repr

namespace Rbc

/-- The confinement state, taken from the counters (R88); TEC changes in no other way while it is 192 or more than by
the recovery that sets it to 0 (R86, R89). -/
def confinement (b : Rbc) : Confinement :=
  if 192 ≤ b.txErrors then .busOff
  else if 128 ≤ b.txErrors ∨ 128 ≤ b.rxErrors then .passive
  else .active

/-- In BUS_OFF (R89). -/
def busOff (b : Rbc) : Bool := decide (b.confinement = .busOff)

/-- In ERROR_PASSIVE (R85). -/
def passive (b : Rbc) : Bool := decide (b.confinement = .passive)

/-- Solo mode: BUS_OFF or STUCK (R116). -/
def solo (b : Rbc) : Bool := b.busOff || b.stuck

/-- The controller takes part in the bus: the join period has been started (R95). -/
def joined (b : Rbc) : Bool := decide (b.join ≠ .absent)

/-- The bus is idle: 11 recessive bits or more (R78). -/
def idle (b : Rbc) : Bool := decide (11 ≤ b.recessiveRun)

/-! ### Run counts (R75, R89) -/

/-- One bit read: its own run count rises by one and the other is 0; in BUS_OFF the recovery count counts the recessive
bits, from 0 again at every dominant one (R75, R89). True is recessive. -/
def readBit (b : Rbc) (recessive : Bool) : Rbc :=
  if recessive then
    { b with recessiveRun := b.recessiveRun + 1, dominantRun := 0,
             recovery := if b.busOff then b.recovery + 1 else b.recovery }
  else { b with recessiveRun := 0, dominantRun := b.dominantRun + 1, recovery := 0 }

/-- The bits read, in order (R75; log entry 6). -/
def readBits (bits : List Bool) (b : Rbc) : Rbc := bits.foldl readBit b

/-- Recessive bits read until that run is n; the recovery count counts them in BUS_OFF. -/
def readRecessiveTo (n : Nat) (b : Rbc) : Rbc :=
  { b with recessiveRun := n, dominantRun := 0,
           recovery := if b.busOff then b.recovery + (n - b.recessiveRun) else b.recovery }

/-- n dominant bits read in a row. -/
def readDominant (n : Nat) (b : Rbc) : Rbc :=
  { b with recessiveRun := 0, dominantRun := b.dominantRun + n, recovery := 0 }

/-- A run of n recessive bits read after a dominant one. -/
def readRecessiveAfterDominant (n : Nat) (b : Rbc) : Rbc :=
  { b with recessiveRun := n, dominantRun := 0, recovery := if b.busOff then n else 0 }

/-- The end of a frame received without error: after a dominant ACK slot the delimiter and the end field, nine recessive
bits; after a recessive one these, the slot, and the recessive bits with which the stuffed region ended (R76, R81). -/
def readFrameEnd (f : Frame) (acked : Bool) (b : Rbc) : Rbc :=
  b.readRecessiveAfterDominant (if acked then 9 else f.lastRecessives)

/-! ### Error counters -/

/-- TEC raised by 8, stopping at 255 (R86). -/
def raiseTx (b : Rbc) : Rbc := { b with txErrors := min 255 (b.txErrors + 8) }

/-- TEC after an ACK error: raised only below 128 (R86). -/
def raiseTxForAck (b : Rbc) : Rbc := if b.txErrors < 128 then b.raiseTx else b

/-- TEC after an attempt acknowledged and ended without error (R86). -/
def lowerTx (b : Rbc) : Rbc := { b with txErrors := b.txErrors - 1 }

/-- REC after a frame discarded for an error; unchanged in BUS_OFF (R87, R89). -/
def raiseRx (b : Rbc) : Rbc := if b.busOff then b else { b with rxErrors := min 255 (b.rxErrors + 1) }

/-- REC after a frame received without error; unchanged in BUS_OFF (R87, R89). -/
def lowerRx (b : Rbc) : Rbc := if b.busOff then b else { b with rxErrors := b.rxErrors - 1 }

/-- A frame received without error has ended: the run counts, by what was read in its ACK slot, and REC (R75, R76, R87,
R89). -/
def endReception (f : Frame) (acked : Bool) (b : Rbc) : Rbc :=
  (({ b with receiving := false } : Rbc).readFrameEnd f acked).lowerRx

/-- Where the station stands in the frame it is receiving, after more bits of it (R80, R83). -/
def reader (read : List Bool) (b : Rbc) : Reader := Reader.after (b.frameBits ++ read)

/-- In the bit after those read the station drives the ACK slot of the frame it is receiving, whose CRC it has found
correct; not in BUS_OFF or in STUCK (R81, R89, R90). -/
def drivesAck (read : List Bool) (b : Rbc) : Bool :=
  b.receiving && !b.stuck && !b.busOff && decide (b.reader read = .ackSlot true)

/-- The receiver finds an error of a kind at the last of the bits read, and it is the frame's first (R83, Table 5-3). -/
def findsError (kind : ErrorKind) (read : List Bool) (b : Rbc) : Bool := decide (b.reader read = .failed kind)

/-- The suspend that a passive station serves after each of its own attempts (R85). -/
def suspendIfPassive (b : Rbc) : Rbc := { b with suspend := b.passive }

/-! ### Slots (R91 to R94) -/

/-- The slot in transmission. -/
def sendingSlot (b : Rbc) : Option Slot := b.slots.find? fun s => s.sending

/-- A marker is owed: in no slot yet, or in one (R92). -/
def owes (m : Marker) (b : Rbc) : Bool := b.owed.contains m || b.slots.any fun s => decide (s.marker = m)

/-- A marker becomes owed (R92). -/
def owe (m : Marker) (b : Rbc) : Rbc := { b with owed := b.owed ++ [m] }

/-- A marker in no slot is withdrawn, without any outcome (R92). -/
def withdraw (p : Marker → Bool) (b : Rbc) : Rbc := { b with owed := b.owed.filter fun m => !p m }

/-- The loaded slot of the lowest arbitration field, of equals the one loaded first (R79, R91). -/
def lowestSlot : List Slot → Option Slot
  | [] => none
  | s :: rest =>
    match lowestSlot rest with
    | none => some s
    | some m => if m.frame.arbitration < s.frame.arbitration then some m else some s

/-- The first of the slots equal to a slot, changed (there may be none). -/
def changeFirst (f : Slot → Slot) (target : Slot) : List Slot → List Slot
  | [] => []
  | s :: rest => if s = target then f s :: rest else s :: changeFirst f target rest

/-- The chosen slot goes in transmission (R91). -/
def startSending (target : Slot) (b : Rbc) : Rbc :=
  { b with slots := changeFirst (fun s => { s with sending := true }) target b.slots }

/-- The slot in transmission empties: its frame has an outcome (R91). -/
def dropSending (b : Rbc) : Rbc := { b with slots := b.slots.filter fun s => !s.sending }

/-- The attempt in transmission has ended otherwise: the slot is loaded again, with the unacknowledged attempts of an
ACK error counted (R82, R91). -/
def keepSending (unacked : Nat) (b : Rbc) : Rbc :=
  { b with slots := b.slots.map fun s => if s.sending then { s with sending := false, unacked := unacked } else s }

end Rbc

end Sys2Proof.Machine
end

