-- ==== Sys2Proof/Machine/Queue.lean ====
section
/-! DEFINITION. The operations of the Alert Queue (Chapter 2): the queue order, admission, merge, withdrawal,
displacement, the overflow event, the return to WAITING with its join, and removal. `now` is the station time. -/

namespace Sys2Proof.Machine

/-! ### Reading a record -/

/-- The record is WAITING. -/
def Record.waiting (r : Record) : Bool := decide (r.state = .waiting)

/-- An own record (section 2.1). -/
def Record.isOwn (r : Record) : Bool :=
  match r.kind with
  | .own _ => true
  | .carried _ => false

/-- A carried record. -/
def Record.isCarried (r : Record) : Bool := !r.isOwn

/-- An own record with a sequence number. -/
def Record.hasSeq (seq : Byte) (r : Record) : Bool :=
  match r.kind with
  | .own o => decide (o.seq = seq)
  | .carried _ => false

/-- An own record that reports a source and a condition. -/
def Record.reports (source : Nat) (condition : Condition) (r : Record) : Bool :=
  match r.kind with
  | .own o => decide (r.source = source ∧ o.condition = condition)
  | .carried _ => false

/-- An own record with the source, condition and qualifier of another own record (R25). -/
def Record.sameReport (a b : Record) : Bool :=
  match a.kind with
  | .own o => b.reports a.source o.condition && decide (b.qualifier = a.qualifier)
  | .carried _ => false

/-! ### The queue order (R26) -/

/-- Whether a stands ahead of b: by class, wait grade, origin term and admission order, taken in turn. -/
def precedes (now : Nat) (a b : Record) : Bool :=
  if a.cls ≠ b.cls then decide (a.cls < b.cls)
  else if a.grade now ≠ b.grade now then decide (a.grade now < b.grade now)
  else if a.originTerm ≠ b.originTerm then decide (a.originTerm < b.originTerm)
  else decide (a.order < b.order)

/-- The first of the records in queue order. -/
def firstOf (now : Nat) : List Record → Option Record
  | [] => none
  | r :: rest =>
    match firstOf now rest with
    | none => some r
    | some m => if precedes now m r then some m else some r

/-- The last of the records in queue order. -/
def lastOf (now : Nat) : List Record → Option Record
  | [] => none
  | r :: rest =>
    match lastOf now rest with
    | none => some r
    | some m => if precedes now r m then some m else some r

namespace AlertQueue

/-- The queue count (R17). -/
def count (q : AlertQueue) : Nat := q.records.length

/-- The carried count (R17). -/
def carriedCount (q : AlertQueue) : Nat := (q.records.filter Record.isCarried).length

/-- The queue holds no record. -/
def empty (q : AlertQueue) : Bool := q.records.isEmpty

/-- The record with an admission order, which no other has (R20). -/
def find (order : Nat) (q : AlertQueue) : Option Record := q.records.find? fun r => decide (r.order = order)

/-- The own record with a sequence number, which no other has (R21). -/
def findSeq (seq : Byte) (q : AlertQueue) : Option Record := q.records.find? (Record.hasSeq seq)

/-- One record changed, named by its admission order. -/
def modify (order : Nat) (f : Record → Record) (q : AlertQueue) : AlertQueue :=
  { q with records := q.records.map fun r => if r.order = order then f r else r }

/-- One record gone, its place and its sequence number free (section 2.6). -/
def remove (order : Nat) (q : AlertQueue) : AlertQueue :=
  { q with records := q.records.filter fun r => decide (r.order ≠ order) }

/-! ### Creation (R18, R20, R21) -/

/-- The search for a sequence number: the first value from `seq` upward that no own record holds, within `fuel`
tries (R21). -/
def freeSeq (q : AlertQueue) : Nat → Byte → Byte
  | 0, seq => seq
  | fuel + 1, seq => if q.records.any (Record.hasSeq seq) then freeSeq q fuel (seq + 1) else seq

/-- The sequence number the next own record takes; 24 own records hold at most 24 values, so 25 tries end (R21). -/
def nextSeq (q : AlertQueue) : Byte := q.freeSeq 25 q.seqCounter

/-- An own record as an event creates it (R18, Table 2-2). -/
def ownRecord (now : Nat) (e : Event) (q : AlertQueue) : Record where
  kind := .own ⟨q.nextSeq, e.condition, now, now⟩
  source := e.source
  qualifier := e.qualifier
  cls := e.cls
  rep := 0
  attempts := 0
  notBefore := now
  second := false
  order := q.admissions
  state := .waiting

/-- A new own record enters: it takes the next sequence number and admission order (R18, R20, R21). -/
def create (now : Nat) (e : Event) (q : AlertQueue) : AlertQueue :=
  { q with
    records := q.records ++ [q.ownRecord now e]
    seqCounter := q.nextSeq + 1
    admissions := q.admissions + 1 }

/-- The victim of a displacement: the last own WAITING record whose class is 3 to 6 and greater than the new record's
(R31). -/
def victim (now cls : Nat) (q : AlertQueue) : Option Record :=
  lastOf now (q.records.filter fun r => r.isOwn && r.waiting && decide (3 ≤ r.cls ∧ cls < r.cls))

/-- The overflow flag is set, and with it the QUEUE_OVERFLOW condition if the flag was clear (R31). -/
def markOverflow (q : AlertQueue) : AlertQueue :=
  { q with overflow := true, queueOverflow := if q.overflow then q.queueOverflow else true }

/-- A new own record must be created: into a free place, or by displacement, or the event is lost (R30, R31). -/
def createOrDisplace (now : Nat) (e : Event) (q : AlertQueue) : AlertQueue :=
  if q.count < 24 then q.create now e
  else
    match q.victim now e.cls with
    | some v => ((q.remove v.order).create now e).markOverflow
    | none => q.markOverflow

/-! ### Merge and withdrawal (R28, R29) -/

/-- One more of the same report, saturating at 9. -/
def bump (r : Record) : Record := { r with rep := min 9 (r.rep + 1) }

/-- NEW against CLEARED; TEST has no opposite (R29). -/
def opposite : Qualifier → Qualifier → Bool
  | .new, .cleared => true
  | .cleared, .new => true
  | _, _ => false

/-- The WAITING own records that report a source and condition (section 2.4). -/
def sameReports (e : Event) (q : AlertQueue) : List Record :=
  q.records.filter fun r => r.waiting && r.reports e.source e.condition

/-- R′ of R29: the latest record ahead of R that carries the event's qualifier. -/
def earlierTwin (now : Nat) (e : Event) (latest : Record) (q : AlertQueue) : Option Record :=
  lastOf now ((q.sameReports e).filter fun r => decide (r.qualifier = e.qualifier) && precedes now r latest)

/-- One event taken into the queue (R28 to R31), and whether a record was withdrawn by it. -/
def takeEvent (now : Nat) (e : Event) (q : AlertQueue) : AlertQueue × Bool :=
  match lastOf now (q.sameReports e) with
  | none => (q.createOrDisplace now e, false)
  | some latest =>
    if latest.qualifier = e.qualifier then (q.modify latest.order bump, false)
    else if opposite latest.qualifier e.qualifier then
      match q.earlierTwin now e latest with
      | some twin => ((q.remove latest.order).modify twin.order bump, true)
      | none => (q.createOrDisplace now e, false)
    else (q.createOrDisplace now e, false)

/-- The overflow event (R12). -/
def overflowEvent : Event := ⟨95, .overflow, .new, 4⟩

/-- What a departure other than a displacement or a reset brings: with the overflow flag set, the overflow event is
admitted and the flag clears (R32). -/
def afterDeparture (now : Nat) (q : AlertQueue) : AlertQueue :=
  if q.overflow then { (q.takeEvent now overflowEvent).1 with overflow := false } else q

/-- Admission of an own event, the overflow event after it where it withdrew a record (R28 to R32). -/
def admitEvent (now : Nat) (e : Event) (q : AlertQueue) : AlertQueue :=
  if (q.takeEvent now e).2 then (q.takeEvent now e).1.afterDeparture now else (q.takeEvent now e).1

/-- Room for a carried record: fewer than 24 records and fewer than 8 carried (R19). -/
def hasRoom (q : AlertQueue) : Bool := decide (q.count < 24 ∧ q.carriedCount < 8)

/-- A carried record enters with the fields of its CARRY (R19, R20, Table 2-3). -/
def takeCarried (now : Nat) (c : CarryFields) (q : AlertQueue) : AlertQueue :=
  { q with
    records := q.records ++ [{
      kind := .carried ⟨c.origin, c.seq, c.account, c.grade, now, false⟩
      source := c.source, qualifier := c.qualifier, cls := c.cls, rep := c.rep
      attempts := 0, notBefore := now, second := false, order := q.admissions, state := .waiting }]
    admissions := q.admissions + 1 }

/-! ### Departures and returns -/

/-- A record leaves, for a reason that may admit the overflow event (section 2.6, R32). -/
def depart (now order : Nat) (q : AlertQueue) : AlertQueue := (q.remove order).afterDeparture now

/-- The WAITING own record that a returning record of class 3 to 6 is joined with (R25). -/
def joinTwin (r : Record) (q : AlertQueue) : Option Record :=
  if 3 ≤ r.cls then q.records.find? fun w => w.waiting && decide (w.order ≠ r.order) && r.sameReport w else none

/-- A record returns to WAITING: its hand-off part goes with its state, and the join of R25 is made. -/
def giveBack (now order : Nat) (q : AlertQueue) : AlertQueue :=
  match q.find order with
  | none => q
  | some r =>
    match q.joinTwin r with
    | none => q.modify order fun x => { x with state := .waiting }
    | some w =>
      ((q.remove w.order).modify order fun x =>
        { x with state := .waiting, rep := min 9 (x.rep + (w.rep + 1)) }).afterDeparture now

/-- The records in the call now in progress (R24). -/
def inCall (q : AlertQueue) : List Record := q.records.filter fun r => decide (r.state = .inCall)

/-- Every record still IN_CALL returns to WAITING (R24, R139). -/
def giveBackAll (now : Nat) (q : AlertQueue) : AlertQueue :=
  q.inCall.foldl (fun acc r => acc.giveBack now r.order) q

/-- The QUEUE_OVERFLOW condition after a delivery: clear if the record is an own source-95 record (R33). -/
def overflowAfterDelivery (r : Record) (q : AlertQueue) : Bool :=
  if r.isOwn && decide (r.source = 95) then false else q.queueOverflow

/-- A record is removed as delivered: the comm-fail indicator clears, and QUEUE_OVERFLOW for an own source-95 record;
the departure follows (R33 to R35, R38). -/
def deliver (now : Nat) (r : Record) (q : AlertQueue) : AlertQueue :=
  ({ q with commFail := false, queueOverflow := q.overflowAfterDelivery r } : AlertQueue).depart now r.order

end AlertQueue

end Sys2Proof.Machine
end

