-- ==== Sys2Proof/Machine/View.lean ====
section
/-! DEFINITION. The operations of one line view entry (Chapter 4) and of the claim protocol upon it (Chapter 6), and the
candidate choice of R99. -/

namespace Sys2Proof.Machine

/-- The derived states of Table 4-3. -/
inductive Derived where
  | notWired | own | dead | unknown | peer | office | free
deriving DecidableEq, Repr

namespace Entry

/-- The derived state: the first condition of Table 4-3 that holds (R59). -/
def derived (e : Entry) : Derived :=
  if !e.wired then .notWired
  else if e.own then .own
  else if e.dead then .dead
  else if e.sense = none then .unknown
  else if e.holder.isSome || e.pending.isSome then .peer
  else if e.sense = some .offHook then .office
  else .free

/-- The line score S (R48). -/
def score (e : Entry) : Nat := lineScore e.failures e.occupancy

/-- The line summary value: the first condition of Table 4-5 that holds (R71). -/
def summary (e : Entry) : Summary :=
  if !e.wired then .notWired else if e.dead then .dead else if e.trouble then .trouble else .usable

/-- Wired, not dead and not in trouble (R49, R71 Note 1). -/
def usable (e : Entry) : Bool := decide (e.summary = .usable)

/-- What the trouble flag is recomputed to (R70). -/
def inTrouble (threshold : Nat) (e : Entry) : Bool := e.wired && (decide (threshold ≤ e.failures) || e.dead)

/-! ### Holder and pending claim (R61 to R65) -/

/-- A holder is set, replaced or promoted: the on-hook timer starts afresh if the sense is ON_HOOK (R61, R64). -/
def setHolder (h : Holder) (e : Entry) : Entry :=
  { e with holder := some h, onHookTimer := decide (e.sense = some .onHook) }

/-- The pending claim becomes holder (R63). -/
def promote (p : Pending) (e : Entry) : Entry := ({ e with pending := none } : Entry).setHolder ⟨p.addr, p.key⟩

/-- The holder is cleared; a pending claim whose guard has passed is promoted in the same step (R63). -/
def clearHolder (e : Entry) : Entry :=
  match e.pending with
  | some p => if p.guardPassed then e.promote p else { e with holder := none, onHookTimer := false }
  | none => { e with holder := none, onHookTimer := false }

/-- The holder is cleared and nothing else: it has made a fresh claim (R62). -/
def dropHolder (e : Entry) : Entry := { e with holder := none, onHookTimer := false }

/-- The entry's holder is a given peer. -/
def heldBy (addr : Nat) (e : Entry) : Bool :=
  match e.holder with
  | some h => decide (h.addr = addr)
  | none => false

/-- A pending claim recorded or replaced, its guard started; a holder of the same address is cleared in the same step
(R62, R105). -/
def record (addr key : Nat) (e : Entry) : Entry :=
  let recorded : Entry := { e with pending := some ⟨addr, key, false, false⟩ }
  if e.heldBy addr then recorded.dropHolder else recorded

/-- A received CLAIM at an observer's entry (R105, Table 6-3). -/
def observeClaim (addr key : Nat) (e : Entry) : Entry :=
  match e.pending with
  | none => e.record addr key
  | some p => if p.addr = addr then e.record addr key else if qualifies key p.key then e.record addr key else e

/-- A received OBJECT at an entry: the pending claim goes, the objector becomes holder (R109). -/
def observeObject (addr key : Nat) (e : Entry) : Entry := ({ e with pending := none } : Entry).setHolder ⟨addr, key⟩

/-- The pending claim is a given peer's. -/
def pendingOf (addr : Nat) (e : Entry) : Bool :=
  match e.pending with
  | some p => decide (p.addr = addr)
  | none => false

/-- A received RELEASE at an entry: of the holder, of the pending claimant, or stale (R114). -/
def observeRelease (addr : Nat) (e : Entry) : Entry :=
  if e.heldBy addr then e.clearHolder
  else if e.pendingOf addr then { e with pending := none }
  else e

/-- A pending claim's guard passes: promoted with no holder, else its yield limit starts (R106). -/
def passGuard (e : Entry) : Entry :=
  match e.pending with
  | none => e
  | some p =>
    if e.holder.isNone then e.promote p
    else { e with pending := some { p with guardPassed := true, yieldLimit := true } }

/-- The yield limit expires: the holder is cleared and the pending claim promoted (R106). -/
def passYieldLimit (e : Entry) : Entry :=
  match e.pending with
  | none => e
  | some p => e.promote p

/-! ### Sensing (R56, R57, R64) -/

/-- The sense changes, with the dead timer and flag of R57 and the on-hook timer of R64. -/
def changeSense (b : LineBand) (e : Entry) : Entry :=
  { e with
    sense := some b
    deadTimer := decide (b = .noBattery)
    dead := if b = .noBattery then e.dead else false
    onHookTimer := decide (b = .onHook) && e.holder.isSome }

/-- The run after a sample: up by one to at most 8, or 1 on a new band (R56). -/
def runAfter (b : LineBand) (e : Entry) : Nat := if e.band = some b then min 8 (e.run + 1) else 1

/-- One sample of a wired line (R56). -/
def sample (b : LineBand) (e : Entry) : Entry :=
  let counted : Entry := { e with band := some b, run := e.runAfter b }
  if e.runAfter b = 8 ∧ e.sense ≠ some b then counted.changeSense b else counted

/-! ### The own claim (R66) -/

/-- The own fields set at the placement of a claim; in solo mode own-guard-done with them (R66, R101, R116). -/
def placeOwn (key : Nat) (tier : Tier) (solo : Bool) (e : Entry) : Entry :=
  { e with own := true, ownKey := some key, barge := decide (tier = .office), ownGuard := .absent,
           ownGuardDone := solo, tier := some tier }

/-- The own fields cleared together (R66). -/
def clearOwn (e : Entry) : Entry :=
  { e with own := false, ownKey := none, barge := false, ownGuard := .absent, ownGuardDone := false, tier := none }

/-- The own claim is placed and its CLAIM has not ended on the bus (Table 6-2). -/
def placed (e : Entry) : Bool := e.own && decide (e.ownGuard = .absent) && !e.ownGuardDone

/-- Own-guard-done is set and a holder is present (Table 6-2). -/
def waitingOnHolder (e : Entry) : Bool := e.own && e.ownGuardDone && e.holder.isSome

/-- The own CLAIM has ended on the bus: the own guard starts, and a pending claim that the claim displaces is removed
(R104). -/
def startOwnGuard (e : Entry) : Entry :=
  { e with ownGuard := .running, pending := if e.tier = some .overPending then none else e.pending }

/-- The own guard passes, or ends at entry to solo mode (R104, R117). -/
def passOwnGuard (e : Entry) : Entry := { e with ownGuard := .passed, ownGuardDone := true }

end Entry

/-! ### The candidate choice (R99) -/

/-- The lines of an entry condition, in line order. -/
def linesWhere (p : Entry → Bool) (v : Four Entry) : List LineId := LineId.all.filter fun k => p (v.get k)

/-- The line of the lowest score, the lowest index among equals (R99). -/
def lowestScore (v : Four Entry) : List LineId → Option LineId
  | [] => none
  | k :: rest =>
    match lowestScore v rest with
    | none => some k
    | some m => if (v.get m).score < (v.get k).score then some m else some k

/-- The key to displace on a line: its pending claim's, or else its holder's (R99). -/
def keyToDisplace (e : Entry) : Option Nat :=
  match e.pending, e.holder with
  | some p, _ => some p.key
  | none, some h => some h.key
  | none, none => none

/-- Tier 4 by whose key is displaced. -/
def tierOver (e : Entry) : Tier := if e.pending.isSome then .overPending else .overHolder

/-- A PEER line whose key to displace is of class c + 2 or above (Table 6-1). -/
def preemptable (cls : Nat) (e : Entry) : Bool :=
  decide (e.derived = .peer) &&
    match keyToDisplace e with
    | some key => decide (cls + 2 ≤ keyClass key)
    | none => false

/-- The line of the highest key to displace, the lowest index among equals (R99). -/
def highestKey (v : Four Entry) : List LineId → Option LineId
  | [] => none
  | k :: rest =>
    match highestKey v rest with
    | none => some k
    | some m => if (keyToDisplace (v.get k)).getD 0 < (keyToDisplace (v.get m)).getD 0 then some m else some k

/-- The candidate line for a lead of a class and the tier it comes from (R99, Table 6-1). -/
def candidate (v : Four Entry) (solo : Bool) (cls : Nat) : Option (LineId × Tier) :=
  match lowestScore v (linesWhere (fun e => decide (e.derived = .free) && !e.trouble) v) with
  | some k => some (k, .free)
  | none =>
    match lowestScore v (linesWhere (fun e => decide (e.derived = .office ∧ cls ≤ 3) && !e.trouble) v) with
    | some k => some (k, .office)
    | none =>
      match lowestScore v (linesWhere (fun e => decide (e.derived = .free) && e.trouble) v) with
      | some k => some (k, .troubled)
      | none =>
        if solo then none
        else
          match highestKey v (linesWhere (preemptable cls) v) with
          | some k => some (k, tierOver (v.get k))
          | none => none

/-! ### The whole view -/

namespace LineView

/-- One entry read. -/
def get (v : LineView) (k : LineId) : Entry := v.entries.get k

/-- One entry changed. -/
def update (v : LineView) (k : LineId) (f : Entry → Entry) : LineView :=
  { v with entries := v.entries.set k (f (v.entries.get k)) }

/-- At least one line is wired (R72). -/
def anyWired (v : LineView) : Bool := v.entries.toList.any fun e => e.wired

/-- At least one line is USABLE (R72). -/
def anyUsable (v : LineView) : Bool := v.entries.toList.any Entry.usable

/-- The lowest score among the USABLE lines (R49). -/
def bestScore (v : LineView) : Option Nat :=
  (lowestScore v.entries (linesWhere Entry.usable v.entries)).map fun k => (v.get k).score

/-- At least one line is wired and every wired line is dead (R58). -/
def everyWiredDead (v : LineView) : Bool := v.anyWired && v.entries.toList.all fun e => !e.wired || e.dead

/-- The all-dead timer kept with the dead flags: it starts when the last wired line goes dead and is cleared when any
wired line is dead no longer (R58). -/
def timeAllDead (v : LineView) : LineView :=
  { v with allDead := if v.everyWiredDead then (if v.allDead = .absent then .running else v.allDead) else .absent }

/-- The line summary (R71). -/
def summary (v : LineView) : Four Summary := v.entries.mapLines fun _ e => e.summary

/-- The line whose entry has the own flag set (R66). -/
def ownLine (v : LineView) : Option LineId := LineId.all.find? fun k => (v.get k).own

end LineView

end Sys2Proof.Machine
end

