-- ==== Sys2Proof/Machine/Flags.lean ====
section
/-! DEFINITION. The conditions one block reads of the others, worked out from the state at the moment they are asked
for: the fault summary, the reported items, the outputs, whether the station can dial, is eligible to accept, and so
on. None of them is stored. -/

namespace Sys2Proof.Machine.State

/-- This station's address (R166). -/
def address (s : State) : Nat := s.loader.strap.toNat

/-- Solo mode (R116). -/
def solo (s : State) : Bool := s.rbc.solo

/-- The entry of one line. -/
def entry (s : State) (k : LineId) : Entry := s.view.get k

/-! ### Faults and outputs (Chapter 10) -/

/-- The fault summary (Table 10-1). -/
def faults (s : State) : Faults where
  configFault := s.loader.configFault
  addressClash := s.ind.addressClash
  fastClockFail := s.clock.latch
  commFail := s.queue.commFail
  lineTrouble := s.view.entries.toList.any fun e => e.wired && e.trouble
  busTrouble := s.zone.busTrouble
  queueOverflow := s.queue.queueOverflow

end Sys2Proof.Machine.State

namespace Sys2Proof.Machine

/-- The fault summary holds at least one condition. -/
def Faults.any (f : Faults) : Bool :=
  f.configFault || f.addressClash || f.fastClockFail || f.commFail || f.lineTrouble || f.busTrouble || f.queueOverflow

/-- The outputs of the station (Table 0-2): HOOK closed and SEIZE asserted line by line, the tones on ATX, RBUS released,
RBUS driven in the ACK slot of the frame being received, the three outputs to the configuration memory, FAULT and ONLINE
asserted. -/
structure Terminals where
  hook : Four Bool
  seize : Four Bool
  atx : List (Nat × Nat)
  rbusReleased : Bool
  drivesAck : Bool
  cfgcsHigh : Bool
  cfgckPulses : Nat
  cfgdoBits : List Bool
  fault : Bool
  online : Bool
deriving DecidableEq, Repr

/-- Any of the four. -/
def anyLine (f : Four Bool) : Bool := f.l0 || f.l1 || f.l2 || f.l3

end Sys2Proof.Machine

namespace Sys2Proof.Machine.State

/-- The FAULT output: through the start hold, and while the summary holds a condition (R172). -/
def faultOutput (s : State) : Bool := !s.loader.verified || s.faults.any

/-- The ONLINE output: while any HOOK output is closed (R173). -/
def onlineOutput (s : State) : Bool := anyLine s.call.hook

/-- The CFGCS output: high but during the configuration read (R167, Table 9-3). -/
def cfgcsHigh (s : State) : Bool := !s.loader.reading

/-- The CFGCK output: the pulses of the configuration read while it is in progress, 440 in all, one to a bit; held Low
otherwise (R167, Table 9-3). -/
def cfgckPulses (s : State) : Nat := if s.loader.reading then configReadBits else 0

/-- The CFGDO output: the read instruction and the two address bytes, most significant bit first, while the configuration
read is in progress; held Low otherwise (R167, Table 9-3). -/
def cfgdoBits (s : State) : List Bool :=
  if s.loader.reading then (configReadHeader.map fun b => bitsOf 8 b.toNat).flatten else []

/-- RBUS is released whatever stands on the wire: before the join period, in BUS_OFF and in STUCK (R89, R90, R95,
Table 9-3). -/
def rbusReleased (s : State) : Bool := !s.rbc.joined || s.solo

/-- The reported items (R175). -/
def reported (s : State) : Reported := ⟨s.faults, s.queue.empty, s.view.summary⟩

/-- What the DTMF generator is sending on ATX: the tones of the digit in progress, or of the symbols of the report block
in order; nothing for a pause or in any other state (R123, R131, R133). -/
def atx (s : State) : List (Nat × Nat) :=
  match s.call.state, s.call.digits with
  | .dial, .digit d :: _ => (dtmfTones d).toList
  | .send, _ => s.call.block.filterMap dtmfTones
  | _, _ => []

/-- The outputs at the terminals (Table 0-2), in the bit after those read of a frame being received. -/
def terminals (s : State) (read : List Bool := []) : Terminals where
  hook := s.call.hook
  seize := s.call.seize
  atx := s.atx
  rbusReleased := s.rbusReleased
  drivesAck := s.rbc.drivesAck read
  cfgcsHigh := s.cfgcsHigh
  cfgckPulses := s.cfgckPulses
  cfgdoBits := s.cfgdoBits
  fault := s.faultOutput
  online := s.onlineOutput

/-! ### Dialling and carrying -/

/-- The station can dial, as the lead asks: a wired line, a number 1, no fast-clock failure (R27). -/
def canDial (s : State) : Bool := s.view.anyWired && !s.loader.settings.number1.isEmpty && !s.clock.latch

/-- The station cannot dial, as the Carry Unit asks: all-dead is one more cause (R146). -/
def cannotDial (s : State) : Bool := !s.canDial || decide (s.view.allDead = .passed)

/-- The station may start a call for a class: any class outside solo mode, classes 0 to 2 in it (R27). -/
def mayCall (s : State) (cls : Nat) : Bool := !s.solo || decide (cls ≤ 2)

/-- A record meets the conditions of the lead (R27). -/
def mayLead (s : State) (r : Record) : Bool :=
  r.waiting && decide (r.notBefore ≤ s.time) && s.mayCall r.cls && s.canDial

/-- The lead record (R27). -/
def lead (s : State) : Option Record := firstOf s.time (s.queue.records.filter s.mayLead)

/-- An own record is due for an offer (R146). -/
def dueForOffer (s : State) (r : Record) : Bool :=
  match r.kind with
  | .own o => r.waiting && decide (o.nextOffer ≤ s.time) &&
      (decide (s.loader.settings.handOff ≤ r.attempts) || s.cannotDial)
  | .carried _ => false

/-- The first record due for an offer in queue order (R146). -/
def firstDue (s : State) : Option Record := firstOf s.time (s.queue.records.filter s.dueForOffer)

/-- The record that an offer would now be made for (R146). -/
def offerable (s : State) : Option Record :=
  if s.carry.offer.isNone && !s.solo && !s.loader.configFault then s.firstDue else none

/-- Eligible to accept, but for the marker it may hold (R154). -/
def eligible (s : State) : Bool :=
  s.loader.settings.willing && !s.loader.configFault && !s.solo && decide (s.rbc.join = .passed) && !s.clock.latch
    && !s.loader.settings.number1.isEmpty && !s.queue.commFail && s.view.anyUsable && s.queue.hasRoom

/-- The sense that judges a line: of the line with the own flag, while its HOOK is closed (R129). -/
def hookClosed (s : State) (k : LineId) : Bool := s.call.hook.get k

/-- The detector is connected and at work: a HOOK is closed and the fast clock is ACTIVE (R120, R121; log entry 18). -/
def hearing (s : State) : Bool := s.onlineOutput && decide (s.clock.state = .active)

/-- The generator is sending a tone: it is at a digit or a report block, and not in a silence of it (R121, R123). -/
def sounding (silent : Bool) (s : State) : Bool := !s.atx.isEmpty && !silent

/-- The class of the audio heard; NONE while the generator is sending a tone (R121). -/
def classHeard (audio : List Nat) (silent : Bool) (s : State) : ToneClass :=
  if s.sounding silent then .none else toneClass audio

end Sys2Proof.Machine.State
end

