-- ==== Sys2Proof/Machine/Ops.lean ====
section
/-! DEFINITION. The operations the commands share across blocks: raising events, owing, withdrawing and aborting frames,
placing and abandoning claims, seizing and hanging up, accounting, offers, solo mode, and `settle`, which at the end of
a step does what the manual takes "afresh". -/

namespace Sys2Proof.Machine

/-! ### Events of the station sources (Table 1-6) -/

/-- Line trouble (R9). -/
def lineEvent (k : LineId) (inTrouble : Bool) : Event :=
  if inTrouble then ⟨90 + k.index, .line, .new, 4⟩ else ⟨90 + k.index, .line, .cleared, 5⟩

/-- Comm-fail onset or FAILED removal (R10). -/
def commNew : Event := ⟨96, .comm, .new, 4⟩

/-- Comm-fail clearing (R10). -/
def commCleared : Event := ⟨96, .comm, .cleared, 5⟩

/-- Bus trouble onset (R11). -/
def busNew : Event := ⟨97, .bus, .new, 4⟩

/-- Bus trouble clearing (R11). -/
def busCleared : Event := ⟨97, .bus, .cleared, 5⟩

/-- The periodic test (R13). -/
def periodicTest : Event := ⟨98, .periodic, .test, 6⟩

/-- Station start (R14). -/
def stationStart : Event := ⟨99, .start, .test, 6⟩

/-- Events in the order the free value picks: at each place, one of those left (R9, log entry 5). -/
def arrange : Nat → Nat → List Event → List Event
  | 0, _, events => events
  | fuel + 1, free, events =>
    match events[Config.eventOrder free % events.length]? with
    | none => events
    | some e => e :: arrange fuel (free + 1) (events.eraseIdx (Config.eventOrder free % events.length))

/-! ### The outcome list (R157) -/

/-- An entry for a record of an origin. -/
def OutcomeEntry.names (origin : Nat) (seq : Byte) (e : OutcomeEntry) : Bool :=
  decide (e.origin = origin ∧ e.seq = seq)

/-- The first entry that meets a condition, changed. -/
def changeFirstOutcome (p : OutcomeEntry → Bool) (f : OutcomeEntry → OutcomeEntry) :
    List OutcomeEntry → List OutcomeEntry
  | [] => []
  | e :: rest => if p e then f e :: rest else e :: changeFirstOutcome p f rest

namespace CarryUnit

/-- An OUTCOME becomes owed: in place of an entry of the same origin and seq whose frame is in no slot, or else at the
end, the oldest entry in no slot withdrawn first when the list holds 16 (R157). -/
def addOutcome (origin : Nat) (seq : Byte) (result : Result) (c : CarryUnit) : CarryUnit :=
  if c.outcomes.any fun e => e.names origin seq && !e.inSlot then
    { c with
      outcomes := changeFirstOutcome (fun e => e.names origin seq && !e.inSlot)
        (fun e => { e with result := result }) c.outcomes }
  else if 16 ≤ c.outcomes.length then
    { c with outcomes := c.outcomes.eraseP (fun e => !e.inSlot) ++ [⟨origin, seq, result, false⟩] }
  else { c with outcomes := c.outcomes ++ [⟨origin, seq, result, false⟩] }

/-- The entry a marker stands for, by whether its frame is in a slot. -/
def servedBy (m : Marker) (inSlot : Bool) (e : OutcomeEntry) : Bool :=
  decide (m = .outcome e.origin e.seq e.result) && decide (e.inSlot = inSlot)

/-- A slot has emptied: an OUTCOME's entry leaves the list with it (R157). -/
def slotEmptied (m : Marker) (c : CarryUnit) : CarryUnit :=
  { c with outcomes := c.outcomes.eraseP (servedBy m true) }

/-- A marker has gone into a slot: an OUTCOME's entry is noted as in one. -/
def slotLoaded (m : Marker) (c : CarryUnit) : CarryUnit :=
  { c with outcomes := changeFirstOutcome (servedBy m false) (fun e => { e with inSlot := true }) c.outcomes }

end CarryUnit

namespace State

/-! ### Raising events -/

/-- An event handed to the Alert Queue; nothing is raised in CONFIG_FAULT (R15, R16). -/
def raise (e : Event) (s : State) : State :=
  if s.loader.configFault then s else { s with queue := s.queue.admitEvent s.time e }

/-- Events handed over in order (R7). -/
def raiseAll (events : List Event) (s : State) : State := events.foldl (fun acc e => acc.raise e) s

/-- The lines whose trouble flag is no longer what F and the dead flag make it (R70). -/
def troubleChanges (s : State) : List LineId :=
  LineId.all.filter fun k => decide ((s.entry k).trouble ≠ (s.entry k).inTrouble s.loader.settings.lineThreshold)

/-- The trouble events of those lines, in an order left open where there are two or more (R9). -/
def troubleEvents (s : State) : List Event :=
  let events := s.troubleChanges.map fun k => lineEvent k ((s.entry k).inTrouble s.loader.settings.lineThreshold)
  if 2 ≤ events.length then arrange 4 s.free events else events

/-- Every trouble flag recomputed, and the events of those that changed raised (R9, R70). -/
def refreshTrouble (s : State) : State :=
  raiseAll s.troubleEvents
    { s with
      view := { s.view with entries := s.view.entries.mapLines fun _ e =>
                  { e with trouble := e.inTrouble s.loader.settings.lineThreshold } }
      free := if 2 ≤ s.troubleChanges.length then s.free + 4 else s.free }

/-! ### Withdrawing and aborting frames (R92, R93) -/

/-- The abort of every frame in a slot whose marker is named: granted unless the slot is in transmission, where it is
held (R93). -/
def abortMatching (p : Marker → Bool) (s : State) : State :=
  { s with
    rbc := { s.rbc with
      slots := (s.rbc.slots.filter fun t => !(p t.marker && !t.sending)).map
        fun t => if p t.marker then { t with abort := true } else t }
    carry := (s.rbc.slots.filter fun t => p t.marker && !t.sending).foldl (fun c t => c.slotEmptied t.marker) s.carry }

/-- Frames no longer wanted: their markers withdrawn where in no slot, aborted where in one (R92, R93). -/
def cancel (p : Marker → Bool) (s : State) : State := ({ s with rbc := s.rbc.withdraw p } : State).abortMatching p

/-- The attempt in transmission has ended without its frame sent: a held abort is granted, else the slot is loaded
again (R91, R93). -/
def endAttempt (unacked : Nat) (s : State) : State :=
  match s.rbc.sendingSlot with
  | none => s
  | some t =>
    if t.abort then { s with rbc := s.rbc.dropSending, carry := s.carry.slotEmptied t.marker }
    else { s with rbc := s.rbc.keepSending unacked }

/-- The unacknowledged attempts of the slot in transmission. -/
def sendingUnacked (s : State) : Nat :=
  match s.rbc.sendingSlot with
  | none => 0
  | some t => t.unacked

end State

/-- A RELEASE marker of a line. -/
def Marker.releases (k : LineId) : Marker → Bool
  | .release j _ => decide (j = k)
  | _ => false

/-- Any RELEASE marker. -/
def Marker.isRelease : Marker → Bool
  | .release _ _ => true
  | _ => false

/-- A CLAIM marker of a line. -/
def Marker.claims (k : LineId) : Marker → Bool
  | .claim j _ _ => decide (j = k)
  | _ => false

/-- An OBJECT marker of a line. -/
def Marker.objects (k : LineId) : Marker → Bool
  | .object j => decide (j = k)
  | _ => false

/-- An OUTCOME marker of an origin. -/
def Marker.answers (origin : Nat) : Marker → Bool
  | .outcome o _ _ => decide (o = origin)
  | _ => false

/-- A RELEASE marker with another reason (R113). -/
def Marker.withReason (reason : Reason) : Marker → Marker
  | .release k _ => .release k reason
  | m => m

namespace State

/-- A RELEASE becomes owed for a line. One still owed in no slot takes the new reason; while one is in a slot the new one
waits for its outcome (R113). -/
def oweRelease (k : LineId) (reason : Reason) (s : State) : State :=
  { s with rbc :=
    if s.rbc.owed.any (Marker.releases k) then
      { s.rbc with owed := s.rbc.owed.map fun m => if m.releases k then m.withReason reason else m }
    else s.rbc.owe (.release k reason) }

/-- An OBJECT becomes owed for a line, one marker to an entry (R107, R108). -/
def oweObject (k : LineId) (s : State) : State :=
  if s.rbc.owes (.object k) then s else { s with rbc := s.rbc.owe (.object k) }

/-! ### The fast clock and the way to SEIZE (R125 to R127, R162) -/

/-- HOOKk closes: the dial-tone wait starts, and the line-lost timer if the sense is NO_BATTERY (R127 to R129). -/
def closeHook (k : LineId) (s : State) : State :=
  { s with call := { s.call with
      hook := s.call.hook.set k true
      timer := some .dialToneWait
      lineLost := decide ((s.entry k).sense = some .noBattery) } }

/-- Entry to SEIZE: the barge flag is copied, SEIZEk asserted, and HOOKk closed unless barging (R127). -/
def enterSeize (k : LineId) (s : State) : State :=
  let seized : State := { s with call := { s.call with
      state := .seize, barge := (s.entry k).barge, seize := s.call.seize.set k true, timer := none } }
  if (s.entry k).barge then { seized with call := { seized.call with timer := some .bargeClearing } }
  else seized.closeHook k

/-- From CLAIM to SEIZE when guard-done and fast-ready are both held (R126). -/
def trySeize (s : State) : State :=
  if s.call.state = .claim ∧ s.call.guardDone ∧ s.call.fastReady then
    match s.call.line with
    | some k => s.enterSeize k
    | none => s
  else s

/-- Guard-done reported to the Call Engine, which waits for it in CLAIM (R126). -/
def reportGuardDone (s : State) : State :=
  if s.call.state = .claim then ({ s with call := { s.call with guardDone := true } } : State).trySeize else s

/-- Fast-ready reported to the Call Engine; not kept in IDLE (R125, R162). -/
def reportFastReady (s : State) : State :=
  if s.call.state = .idle then s else ({ s with call := { s.call with fastReady := true } } : State).trySeize

/-- The fast clock requested (R162). -/
def requestClock (s : State) : State :=
  match s.clock.state with
  | .quiet =>
    if s.clock.latch then s
    else { s with clock := { s.clock with state := .warming, warmTimer := .running, steady := false } }
  | .warming => s
  | .active => ({ s with clock := { s.clock with releaseTimer := false } } : State).reportFastReady

/-- The holder of an entry is cleared, with the promotion of R63; a claim of this station that waited on it is ready, and
guard-done is reported (R112, R114). -/
def holderGone (k : LineId) (s : State) : State :=
  let cleared : State := { s with view := s.view.update k Entry.clearHolder }
  if (s.entry k).waitingOnHolder then cleared.reportGuardDone else cleared

/-! ### Claims (R101, R102, R116) -/

/-- A claim placed on a line for a record: its key composed, the own fields set, a CLAIM owed but in solo mode, where
own-guard-done is set at once (R101, R116). -/
def placeOn (k : LineId) (tier : Tier) (r : Record) (s : State) : State :=
  { s with
    view := s.view.update k (Entry.placeOwn (r.key s.time s.address) tier s.solo)
    call := { s.call with line := some k, guardDone := s.solo }
    rbc := if s.solo then s.rbc
      else s.rbc.owe (.claim k (r.key s.time s.address) (decide (tier = .office))) }

/-- The Call Engine leaves IDLE with a lead and a candidate (R101, R125). -/
def startCall (r : Record) (k : LineId) (tier : Tier) (s : State) : State :=
  let taken : State := { s with
    queue := s.queue.modify r.order fun x => { x with state := .inCall }
    call := { s.call with state := .claim, lead := some r.order, inHand := some r.order, batch := 0, sends := 0 }
    clock := { s.clock with releaseTimer := false } }
  (taken.placeOn k tier r).requestClock.trySeize

/-- The candidate choice while the Call Engine is IDLE and there is a lead (R100). -/
def choose (s : State) : State :=
  if s.call.state = .idle ∧ !s.loader.configFault then
    match s.lead with
    | none => s
    | some r =>
      match candidate s.view.entries s.solo r.cls with
      | some (k, tier) => s.startCall r k tier
      | none => s
  else s

/-- The Call Engine enters IDLE: its fields take their values of Table 7-3 and the release timer starts (R124, R164). -/
def enterIdle (s : State) : State :=
  { s with call := CallEngine.idle, clock := { s.clock with releaseTimer := true } }

/-- The own fields of an entry cleared, its OBJECT no longer wanted (R66, R108). -/
def clearOwnFields (k : LineId) (s : State) : State :=
  ({ s with view := s.view.update k Entry.clearOwn } : State).cancel (Marker.objects k)

/-- The first half of an abandonment in CLAIM: the own fields cleared, the CLAIM withdrawn or its abort requested
(R102). -/
def dropClaim (k : LineId) (s : State) : State :=
  (({ s with call := { s.call with guardDone := false } } : State).clearOwnFields k).cancel (Marker.claims k)

/-- Abandonment without re-choice: the lead returns to WAITING and the engine to IDLE, nothing counted (R102, R126). -/
def giveUpCall (s : State) : State :=
  ({ s with queue := s.queue.giveBackAll s.time } : State).enterIdle

/-- The call's lead, if it is still in the queue (R124 Note 1). -/
def callLead (s : State) : Option Record :=
  match s.call.lead with
  | some order => s.queue.find order
  | none => none

/-- The call's record in hand. -/
def callInHand (s : State) : Option Record :=
  match s.call.inHand with
  | some order => s.queue.find order
  | none => none

/-- The second half of an abandonment in CLAIM: the candidate choice afresh for the same lead, or the lead given back
(R102). -/
def rechoose (s : State) : State :=
  match s.callLead with
  | none => s.giveUpCall
  | some r =>
    if s.mayCall r.cls && s.canDial then
      match candidate s.view.entries s.solo r.cls with
      | some (k, tier) => (s.placeOn k tier r).trySeize
      | none => s.giveUpCall
    else s.giveUpCall

/-- A claim on a line abandoned in CLAIM (R102). -/
def abandonInClaim (k : LineId) (s : State) : State := (s.dropClaim k).rechoose

/-! ### Accounting and hanging up (R36, R37, R139, R141, R142) -/

/-- Attempts raised by one, saturating at 15. -/
def raisedAttempts (r : Record) : Nat := min 15 (r.attempts + 1)

/-- A record whose attempts have just been raised, checked against M; the events are admitted after the step (R10, R36,
R37). -/
def checkAttempts (r : Record) (s : State) : State × List Event :=
  if s.loader.settings.maxAttempts ≤ r.attempts then
    match r.kind with
    | .own _ =>
      let marked : State := { s with queue := { s.queue with commFail := true } }
      if 3 ≤ r.cls then
        ({ marked with queue := marked.queue.depart s.time r.order }, if r.source = 96 then [] else [commNew])
      else (marked, if s.queue.commFail then [] else [commNew])
    | .carried c =>
      if 3 ≤ r.cls then
        ({ s with
            queue := s.queue.depart s.time r.order
            carry := if c.orphaned then s.carry else s.carry.addOutcome c.origin c.originSeq .returned }, [])
      else (s, [])
  else (s, [])

/-- One attempt counted against a record, with a change of its other fields, and the check against M (R36, R37). -/
def countAttempt (r : Record) (also : Record → Record) (s : State) : State × List Event :=
  let raised : Record := also { r with attempts := raisedAttempts r }
  ({ s with queue := s.queue.modify r.order fun _ => raised } : State).checkAttempts raised

/-- A centre-caused failure counted against the record in hand: attempts, number index, not-before (R50, R142). -/
def accountCentre (s : State) : State × List Event :=
  match s.callInHand with
  | none => (s, [])
  | some r =>
    s.countAttempt r fun x =>
      { x with second := !x.second, notBefore := s.time + retryGap (raisedAttempts r) r.cls }

/-- A line-caused failure: F of the line up to 7, the lead held back 5 s if it is still in the queue (R51, R68,
R141). -/
def accountLine (k : LineId) (s : State) : State :=
  { s with
    view := s.view.update k fun e => { e with failures := min 7 (e.failures + 1) }
    queue := match s.call.lead with
      | some order => s.queue.modify order fun r => { r with notBefore := s.time + lineGap }
      | none => s.queue }

end State

/-- The kinds of Table 7-6. -/
inductive OutcomeKind where
  | success | yield | lineCaused | centreCaused | nothing
deriving DecidableEq, Repr

/-- Table 7-6, "Kind". -/
def CallOutcome.kind : CallOutcome → OutcomeKind
  | .done => .success
  | .preempted => .yield
  | .noDialTone => .lineCaused
  | .lineLost => .lineCaused
  | .centreBusy => .centreCaused
  | .noHandshake => .centreCaused
  | .noKissoff => .centreCaused
  | .abandoned => .nothing

/-- Table 7-6, "RELEASE reason". -/
def CallOutcome.reason : CallOutcome → Reason
  | .done => .done
  | .preempted => .preempted
  | .noDialTone => .failed
  | .lineLost => .failed
  | .centreBusy => .failed
  | .noHandshake => .failed
  | .noKissoff => .failed
  | .abandoned => .abandoned

namespace State

/-- The outcome accounted (R139 step 2). -/
def account (k : LineId) (o : CallOutcome) (s : State) : State × List Event :=
  match o.kind with
  | .lineCaused => (s.accountLine k, [])
  | .centreCaused => s.accountCentre
  | .success => (s, [])
  | .yield => (s, [])
  | .nothing => (s, [])

/-- Step 1 of HANGUP entry: HOOK and SEIZE released, the generator and the timers stopped, the hold started (R139). -/
def releaseLine (o : CallOutcome) (s : State) : State :=
  { s with
    call := { s.call with
      state := .hangup, outcome := some o, timer := some .hold, lineLost := false, digits := [], block := []
      hook := Four.const false, seize := Four.const false }
    tone := { s.tone with cls := .none } }

/-- HANGUP entry with an outcome, its five parts in order; then the events of the accounting (R139). -/
def hangUp (o : CallOutcome) (s : State) : State :=
  match s.call.line with
  | none => s
  | some k =>
    let accounted := (s.releaseLine o).account k o
    let returned : State := { accounted.1 with queue := accounted.1.queue.giveBackAll s.time }
    let released : State := if s.solo then returned else returned.oweRelease k o.reason
    (released.raiseAll accounted.2).refreshTrouble

/-- The engine acts on yield-pending at the yield point of its state (R137). -/
def takeYield (s : State) : State :=
  match s.call.state with
  | .claim => s.hangUp .preempted
  | .seize => s.hangUp .preempted
  | .dial => s.hangUp .preempted
  | .handshake => s.hangUp .preempted
  | .kissoff => if s.call.timer = some .betweenMessages then s.hangUp .preempted else s
  | .idle => s
  | .send => s
  | .hangup => s

/-- Yield-pending set by a qualifying claim on the own line, unless it is set already (R111). -/
def setYield (s : State) : State :=
  if s.call.yieldPending then s else ({ s with call := { s.call with yieldPending := true } } : State).takeYield

/-- Entry to SEND: the report block composed, the send count raised, the generator sending (R133). -/
def enterSend (r : Record) (s : State) : State :=
  { s with
    call := { s.call with
      state := .send, sends := s.call.sends + 1, timer := some .symbols, block := r.block s.loader.settings.account }
    tone := { s.tone with cls := .none } }

/-! ### Delivery (R34, R35) -/

/-- A record removed as delivered: the OUTCOME of a carried one that is not orphaned, the queue, and the comm-fail
clearing event (R10, R34, R35). -/
def deliver (r : Record) (s : State) : State :=
  let removed : State := { s with
    queue := s.queue.deliver s.time r
    carry := match r.kind with
      | .carried c => if c.orphaned then s.carry else s.carry.addOutcome c.origin c.originSeq .delivered
      | .own _ => s.carry }
  if s.queue.commFail then removed.raise commCleared else removed

/-! ### Offers (R146 to R151) -/

/-- An offer made for the first due record (R146, R147). -/
def makeOffer (s : State) : State :=
  match s.offerable with
  | none => s
  | some r =>
    match r.kind with
    | .carried _ => s
    | .own o =>
      { s with
        queue := s.queue.modify r.order fun x => { x with state := .offered s.time }
        carry := { s.carry with offer := some ⟨o.seq, r.key s.time s.address, .owed⟩ }
        rbc := s.rbc.owe (.offer o.seq (r.key s.time s.address)) }

/-- The outstanding offer ends with its record; its frame is no longer wanted (R151). -/
def endOffer (s : State) : State :=
  match s.carry.offer with
  | none => s
  | some o =>
    let ended : State := { s with carry := { s.carry with offer := none } }
    match o.phase with
    | .owed => ended.cancel fun m => decide (m = .offer o.seq o.key)
    | .window => ended
    | .carrying acceptor => ended.cancel fun m => decide (m = .carry o.seq acceptor)

/-- The accept-pending marker ends, and its ACCEPT is no longer wanted (R155). -/
def endAccept (s : State) : State :=
  match s.carry.accept with
  | none => s
  | some a =>
    ({ s with carry := { s.carry with accept := none } } : State).cancel
      fun m => decide (m = .accept a.origin a.seq a.value)

/-! ### Solo mode (R94, R116, R117) -/

/-- Every RELEASE, in a slot or owed, dropped at entry to BUS_OFF or STUCK (R94). That one which waits by R113 for the
outcome of another of its line is dropped with it, and does not become owed at that outcome, is the model's choice (log
entry 33). -/
def dropReleases (s : State) : State :=
  { s with rbc := { s.rbc with
      owed := s.rbc.owed.filter fun m => !m.isRelease
      slots := s.rbc.slots.filter fun t => !t.marker.isRelease } }

/-- The tiers 1 to 3. -/
def lowTier : Option Tier → Bool
  | some .free => true
  | some .office => true
  | some .troubled => true
  | _ => false

/-- The lead is of class 0 to 2 and its line came from tiers 1 to 3 (R117). -/
def soloAllows (k : LineId) (s : State) : Bool :=
  match s.callLead with
  | some r => decide (r.cls ≤ 2) && lowTier (s.entry k).tier
  | none => false

/-- A claim in progress at entry to solo mode, by its phase (R117). -/
def claimIntoSolo (s : State) : State :=
  match s.call.state, s.call.line with
  | .claim, some k =>
    if (s.entry k).placed then
      if s.soloAllows k then
        (({ s with view := s.view.update k fun e => { e with ownGuardDone := true } } : State).cancel
          (Marker.claims k)).reportGuardDone
      else s.abandonInClaim k
    else if (s.entry k).ownGuard = .running then
      let passed : State := { s with view := s.view.update k Entry.passOwnGuard }
      if (s.entry k).holder.isNone then passed.reportGuardDone else passed
    else s
  | _, _ => s

/-- Entry to solo mode: the bus trouble timer starts and the claim in progress is treated (R11, R117). -/
def enterSolo (s : State) : State :=
  ({ s with zone := { s.zone with busTimer := true } } : State).claimIntoSolo

/-- Exit from solo mode: the bus trouble timer is cleared, and the condition with its clearing event (R11). -/
def leaveSolo (s : State) : State :=
  let stopped : State := { s with zone := { s.zone with busTimer := false, busTrouble := false } }
  if s.zone.busTrouble then stopped.raise busCleared else stopped

/-! ### Loading the slots (R91, R92) -/

/-- A RELEASE of a line is in a slot. -/
def releaseInSlot (k : LineId) (s : State) : Bool := s.rbc.slots.any fun t => t.marker.releases k

/-- The frame of a marker with the contents it would be loaded with now; none while it may not be loaded (R91, R107,
R113, R150, R176). -/
def compose (s : State) : Marker → Option Frame
  | .claim k key barge => some (claimFrame key k barge)
  | .object k => (s.entry k).ownKey.map fun key => objectFrame key k (s.entry k).ownGuardDone
  | .release k reason => if s.releaseInSlot k then none else some (releaseFrame s.address k reason)
  | .offer seq key => some (offerFrame key seq)
  | .accept origin seq value => some (acceptFrame value origin seq)
  | .carry seq acceptor =>
    (s.queue.findSeq seq).map fun r => carryFrame s.time s.address acceptor s.loader.settings.account seq r
  | .outcome origin seq result => some (outcomeFrame s.address origin seq result)
  | .state =>
    some (stateFrame s.address s.ind.freshMark s.faults s.queue.count s.queue.carriedCount s.view.summary)

/-- The OUTCOME markers in no slot, in the order owed (R157). -/
def outcomeMarkers (s : State) : List Marker :=
  (s.carry.outcomes.filter fun e => !e.inSlot).map fun e => .outcome e.origin e.seq e.result

/-- The owed markers in no slot that may be loaded, with their frames (R92). -/
def loadable (s : State) : List (Marker × Frame) :=
  (s.rbc.owed ++ s.outcomeMarkers).filterMap fun m => (s.compose m).map fun f => (m, f)

/-- The lowest type code, then the lowest value, then the one owed first (R92). -/
def lowestFrame : List (Marker × Frame) → Option (Marker × Frame)
  | [] => none
  | x :: rest =>
    match lowestFrame rest with
    | none => some x
    | some m => if m.2.arbitration < x.2.arbitration then some m else some x

/-- A marker's frame placed in an empty slot; a STATE's contents become the last contents (R91, R176). -/
def putInSlot (m : Marker) (f : Frame) (s : State) : State :=
  { s with
    rbc := { s.rbc with owed := s.rbc.owed.erase m, slots := s.rbc.slots ++ [⟨m, f, 0, false, false⟩] }
    carry := s.carry.slotLoaded m
    ind := if m = .state then { s.ind with last := some s.reported, stateOwed := false } else s.ind }

/-- One empty slot filled, if there is one and a marker to fill it (R92). -/
def loadOne (s : State) : State :=
  if s.rbc.slots.length < 3 then
    match lowestFrame s.loadable with
    | none => s
    | some (m, f) => s.putInSlot m f
  else s

/-- The three slots filled as far as the owed markers go (R92). -/
def loadSlots (s : State) : State := s.loadOne.loadOne.loadOne

/-! ### The end of a step -/

/-- The STATE-owed flag after a change of a reported item since `before` (R175). -/
def noteReported (before s : State) : State :=
  if s.reported = before.reported then s
  else { s with ind := { s.ind with stateOwed := decide (s.ind.last ≠ some s.reported) } }

/-- The STATE marker owed or withdrawn by the flag, the spacing and the slots; never owed at address 0 (R166, R175). -/
def oweState (s : State) : State :=
  if s.ind.stateOwed then
    if !s.ind.spacing && !s.rbc.owes .state && decide (s.address ≠ 0) then { s with rbc := s.rbc.owe .state } else s
  else { s with rbc := s.rbc.withdraw fun m => decide (m = .state) }

/-- The accept-pending marker's ACCEPT is still owed or in a slot (R155). -/
def acceptUnsent (s : State) : Bool :=
  match s.carry.accept with
  | some a => s.rbc.owes (.accept a.origin a.seq a.value)
  | none => false

/-- The change that makes the station ineligible while its ACCEPT is unsent ends the marker (R155). -/
def checkAccept (before s : State) : State :=
  if s.acceptUnsent && before.eligible && !s.eligible then s.endAccept else s

/-- The Call Engine and the Carry Unit would both take one record at this moment (R146). -/
def contested (s : State) : Bool :=
  match s.lead, s.offerable with
  | some r, some d =>
    decide (s.call.state = .idle) && !s.loader.configFault && decide (r.order = d.order)
      && (candidate s.view.entries s.solo r.cls).isSome
  | _, _ => false

/-- The candidate choice and the making of an offer; where both would take one record, which acts first is left open
(R146, log entry 4). -/
def chooseAndOffer (s : State) : State :=
  if s.contested then
    let next : State := { s with free := s.free + 1 }
    if Config.offerFirst s.free then next.makeOffer.choose else next.choose.makeOffer
  else s.choose.makeOffer

/-- What closes a step whose effect took the station from `before` to `s`: everything the manual takes afresh, once (log
entry 20). -/
def settle (before s : State) : State :=
  ((noteReported before (checkAccept before s).chooseAndOffer).oweState).loadSlots

/-- The same without a new offer, for the tick of station time (R40, log entry 14). -/
def settleChoice (before s : State) : State :=
  ((noteReported before (checkAccept before s).choose).oweState).loadSlots

/-- The same where nothing changed that a choice or an offer depends on: the reported items and the slots. -/
def settleFrames (before s : State) : State := ((noteReported before s).oweState).loadSlots

/-! ### Receiving and sending frames -/

/-- A frame of another station has ended without error: the counters; the address-clash check; a frame out of range goes
no further; the rest is delivered (R87, R96, R97). Nothing happens where no frame is being received. -/
def receiveFrame {α : Type} (f : Frame) (acked : Bool) (fields : Option α) (take : α → State → State) (s : State) :
    State :=
  if s.rbc.receiving && !s.rbc.stuck then
    let ended : State := { s with rbc := s.rbc.endReception f acked }
    if s.address ≠ 0 ∧ senderOf f.value = s.address then
      settleFrames s { ended with ind := { ended.ind with addressClash := true } }
    else
      match fields with
      | some x => take x ended
      | none => ended
  else s

/-- A RELEASE of a line has had its outcome: one that waited for it is owed from now (R113). -/
def releaseEnded (k : LineId) (s : State) : State :=
  { s with rbc := { s.rbc with
      owed := (s.rbc.owed.filter fun m => !m.releases k) ++ s.rbc.owed.filter (Marker.releases k) } }

/-- The own CLAIM on a line has ended on the bus: the own guard starts (R104). A CLAIM of a claim meanwhile abandoned
starts nothing. -/
def claimEnded (k : LineId) (key : Nat) (s : State) : State :=
  if s.call.state = .claim ∧ (s.entry k).placed ∧ (s.entry k).ownKey = some key then
    { s with view := s.view.update k Entry.startOwnGuard }
  else s

/-- The OFFER has ended on the bus: its window starts, if the offer is still there (R147, R151). -/
def offerEnded (seq : Byte) (key : Nat) (s : State) : State :=
  if s.carry.offer = some ⟨seq, key, .owed⟩ then
    { s with carry := { s.carry with offer := some ⟨seq, key, .window⟩ } }
  else s

/-- The CARRY has ended on the bus: the record is HANDED and the offer ends, if the offer is still there (R22, R150,
R151). -/
def carryEnded (seq : Byte) (acceptor : Nat) (s : State) : State :=
  match s.carry.offer with
  | some o =>
    if o.seq = seq ∧ o.phase = .carrying acceptor then
      { s with
        carry := { s.carry with offer := none }
        queue := match s.queue.findSeq seq with
          | some r => s.queue.modify r.order fun x => { x with state := .handed acceptor s.time }
          | none => s.queue }
    else s
  | none => s

/-- The STATE has its outcome: the spacing timer starts, and the fresh-start mark clears if this frame carried it
(R175). -/
def stateEnded (f : Frame) (s : State) : State :=
  { s with ind := { s.ind with spacing := true, freshMark := s.ind.freshMark && !f.fresh } }

/-- What the owner of a frame does when it ends SENT or SENT_UNHEARD, which it takes alike (R82). -/
def frameEnded (t : Slot) (s : State) : State :=
  match t.marker with
  | .claim k key _ => s.claimEnded k key
  | .object _ => s
  | .release k _ => s.releaseEnded k
  | .offer seq key => s.offerEnded seq key
  | .accept _ _ _ => s
  | .carry seq acceptor => s.carryEnded seq acceptor
  | .outcome _ _ _ => s
  | .state => s.stateEnded t.frame

/-- The slot in transmission empties with its frame sent, and the owner takes the outcome (R91, R94). -/
def concludeSending (t : Slot) (s : State) : State :=
  ({ s with rbc := s.rbc.dropSending, carry := s.carry.slotEmptied t.marker } : State).frameEnded t

/-- The frame of the slot in transmission has ended on the bus acknowledged, if it is of a type: TEC falls, the slot
empties SENT, a passive station serves its suspend (R82, R85, R86, R94). -/
def sent (type : FrameType) (s : State) : State :=
  match s.rbc.sendingSlot with
  | none => s
  | some t =>
    if t.frame.type = type then
      settle s (({ s with
        rbc := (s.rbc.readRecessiveAfterDominant 9).lowerTx.suspendIfPassive } : State).concludeSending t)
    else s

end State

end Sys2Proof.Machine
end

