-- ==== Sys2Proof/WellFormed.lean ====
section
/-! DEFINITION. Which commands the outside world can bring: the operands that a step of the table can have. -/

namespace Sys2Proof

/-- A loop is measured as a ratio to an end-of-line value that is not 0 (R2). -/
def LoopMeasure.wellFormed (m : LoopMeasure) : Bool := 0 < m.eol

/-- The error kinds that a receiver detects (Table 5-3, "Detected by"). -/
def ErrorKind.byReceiver : ErrorKind → Bool
  | .bit => false
  | .form => true
  | .check => true
  | .ack => false

/-- The error kinds that a transmitter detects (Table 5-3, "Detected by"). -/
def ErrorKind.byTransmitter : ErrorKind → Bool
  | .bit => true
  | .form => true
  | .check => false
  | .ack => true

/-- A well-formed command. The width of every other operand is held by its type; a frame with a field out of range
is well formed, since R96 says what the station does with it. -/
def Instr.wellFormed : Instr → Bool
  | .zoneSamplePass loops => ZoneId.all.all fun z => (loops.get z).wellFormed
  | .receiveError kind _ _ => kind.byReceiver
  | .transmitError kind _ _ => kind.byTransmitter
  | .reset => true
  | .releaseOfReset _ => true
  | .configReadDone _ => true
  | .testTimerExpiry => true
  | .lineSamplePass _ => true
  | .deadTimerExpiry _ => true
  | .allDeadTimerExpiry => true
  | .peerIdleLimit _ => true
  | .stationTimeTick => true
  | .notBeforePasses => true
  | .nextOfferTimePasses => true
  | .carryTimeout _ => true
  | .busTroubleTimerExpiry => true
  | .joinPeriodEnd => true
  | .busIdle _ => true
  | .frameStart _ => true
  | .passiveSuspendEnd => true
  | .stuckEntry => true
  | .stuckExit => true
  | .busOffRecovery _ => true
  | .claimReceived _ _ _ => true
  | .objectReceived _ _ _ => true
  | .releaseReceived _ _ _ => true
  | .offerReceived _ _ _ => true
  | .acceptReceived _ _ _ => true
  | .carryReceived _ _ _ => true
  | .outcomeReceived _ _ _ => true
  | .stateReceived _ _ _ => true
  | .claimSent => true
  | .objectSent => true
  | .releaseSent => true
  | .offerSent => true
  | .acceptSent => true
  | .carrySent => true
  | .outcomeSent => true
  | .stateSent => true
  | .pendingGuardPasses _ => true
  | .ownGuardPasses => true
  | .yieldLimitExpiry _ => true
  | .yieldWaitExpiry => true
  | .offerWindowExpiry => true
  | .acceptPendingTimeout => true
  | .stateSpacingExpiry => true
  | .warmTimeReached _ => true
  | .oscillatorSteady => true
  | .fastClockFail => true
  | .fastClockRelease => true
  | .bargeClearingEnd => true
  | .dialToneJudged => true
  | .dialToneWaitExpiry => true
  | .digitEnd => true
  | .toneClassChange _ _ _ => true
  | .toneGapLimit _ => true
  | .busyPeriodLimit => true
  | .busyCadence => true
  | .handshakeJudged => true
  | .handshakeWaitExpiry => true
  | .settleEnd => true
  | .sendEnd => true
  | .kissoffJudged => true
  | .kissoffWaitExpiry => true
  | .betweenMessagesEnd => true
  | .lineLostTimerExpiry => true
  | .hangUpHoldEnd => true
  | .startOfFrameReceived => true
  | .arbitrationLost _ => true

end Sys2Proof
end

