-- ==== Sys2Proof/Machine/BusEvents.lean ====
section
/-! DEFINITION. What the Riser Bus Controller meets on the wire, and the bus trouble timer: BUS_TROUBLE_TIMER_EXPIRY,
JOIN_PERIOD_END, BUS_IDLE, FRAME_START, START_OF_FRAME_RECEIVED, ARBITRATION_LOST, RECEIVE_ERROR, TRANSMIT_ERROR,
PASSIVE_SUSPEND_END, STUCK_ENTRY, STUCK_EXIT, BUS_OFF_RECOVERY (Chapter 5, R11). -/

namespace Sys2Proof.Machine

open Host

/-- BUS_TROUBLE_TIMER_EXPIRY: 60 s in solo mode: the condition becomes true, its event is raised, and the timer stops
(R11). -/
def execBusTroubleTimerExpiry (s : State) : Outcome State Fault Refusal :=
  if s.zone.busTimer then
    .next (s.settle (({ s with zone := { s.zone with busTimer := false, busTrouble := true } } : State).raise busNew))
  else .next s

/-- JOIN_PERIOD_END: from now the station may start frames (R95). -/
def execJoinPeriodEnd (s : State) : Outcome State Fault Refusal :=
  if s.rbc.join = .running then .next { s with rbc := { s.rbc with join := .passed } } else .next s

/-- The controller reads the wire and holds no frame of its own on it: it takes part in the bus, is not STUCK, and no slot
is in transmission (R90, R91, R95). -/
def Rbc.listens (b : Rbc) : Bool := b.joined && !b.stuck && b.sendingSlot.isNone

/-- BUS_IDLE: the recessive count reaches 11; a frame that was being received is over (R78; log entry 30). -/
def execBusIdle (s : State) (read : List Bool := []) : Outcome State Fault Refusal :=
  if s.rbc.listens && !s.rbc.idle && decide ((s.rbc.readBits read).recessiveRun = 11) then
    .next { s with rbc := { s.rbc.readBits read with receiving := false } }
  else .next s

/-- R79: the bus is idle, no suspend runs, the join period has ended, and the station is in neither BUS_OFF nor STUCK.
Every frame received has been delivered and answered, since each does so within its own step. -/
def Rbc.mayStart (b : Rbc) : Bool :=
  b.listens && b.idle && !b.suspend && !b.busOff && decide (b.join = .passed)

/-- FRAME_START: the loaded slot of the lowest arbitration field goes in transmission, with its start-of-frame bit, sent
dominant and counted as it is read back (R75, R79, R91). -/
def execFrameStart (s : State) (start : Bool := false) : Outcome State Fault Refusal :=
  if s.rbc.mayStart then
    match Rbc.lowestSlot s.rbc.slots with
    | some t => .next { s with rbc := (s.rbc.startSending t).readBit start }
    | none => .next s
  else .next s

/-- START_OF_FRAME_RECEIVED: a dominant bit on an idle bus begins a reception, and ends a passive suspend (R78, R85). -/
def execStartOfFrameReceived (s : State) : Outcome State Fault Refusal :=
  if s.rbc.listens && s.rbc.idle then
    .next { s with rbc := { s.rbc.readDominant 1 with receiving := true, suspend := false, frameBits := [] } }
  else .next s

/-- The start-of-frame bit of the attempt in transmission read recessive: the counts stand as that bit left them (R75). -/
def Rbc.startFailed (b : Rbc) : Bool := decide (b.recessiveRun ≠ 0)

/-- ARBITRATION_LOST: the attempt ends, its slot stays loaded unless an abort was held, no counter changes, and the
station goes on as a receiver from the start-of-frame bit; a passive station owes its suspend (R75, R80, R85, R91, R93).
-/
def execArbitrationLost (s : State) (read : List Bool := []) : Outcome State Fault Refusal :=
  match s.rbc.sendingSlot with
  | none => .next s
  | some t =>
    if t.frame.lostBy read && !s.rbc.startFailed then
      let ended := s.endAttempt t.unacked
      .next (s.settleFrames { ended with
        rbc := { (ended.rbc.readBits read).suspendIfPassive with receiving := true, frameBits := read } })
    else .next s

/-- The abort pattern of an active station, eight bits sent dominant and counted as they are read back; a passive one
sends none (R75, R78, R84, R85). -/
def Rbc.signalError (active : Bool) (echo : BitVec 8) (b : Rbc) : Rbc :=
  if active then b.readBits (bitsOf 8 echo.toNat) else b

/-- RECEIVE_ERROR, at the first error that the bits of the frame show: the frame is discarded, an active station sends the
abort pattern, and REC rises but in BUS_OFF (R75, R83 to R85, R87, R89; log entry 6). -/
def execReceiveError (kind : ErrorKind) (s : State) (read : List Bool := []) (echo : BitVec 8 := 0) :
    Outcome State Fault Refusal :=
  if s.rbc.receiving && !s.rbc.stuck && kind.byReceiver && s.rbc.findsError kind read then
    let signalled := (s.rbc.readBits read).signalError (decide (s.rbc.confinement = .active)) echo
    .next { s with rbc := { signalled.raiseRx with receiving := false } }
  else .next s

/-- A transmitter finds an error of a kind in what it reads back of its frame (Table 5-3). Its start-of-frame bit is in
the stuffed region and outside the arbitration field: read recessive, it is a BIT error, and the first. -/
def Rbc.losesAttempt (kind : ErrorKind) (f : Frame) (read : List Bool) (b : Rbc) : Bool :=
  if b.startFailed then decide (kind = .bit ∧ read = [])
  else match kind with
  | .bit => f.differs read && !f.lostBy read
  | .form =>
    f.differs read && !f.lostBy read
        && decide ((b.readBits read).recessiveRun = 7 ∨ (b.readBits read).dominantRun = 7)
      || f.endBroken read
  | .check => false
  | .ack => f.unheardBy (decide (b.confinement = .active)) read

/-- What an attempt that ends in an error leaves in the run counts: the bits read, then those of an active station's
abort pattern (R75, R84, R85). -/
def Rbc.readFailedAttempt (read : List Bool) (echo : BitVec 8) (b : Rbc) : Rbc :=
  (b.readBits read).signalError (decide (b.confinement = .active)) echo

/-- TEC after a failed attempt (R86). -/
def Rbc.countFailedAttempt (kind : ErrorKind) (b : Rbc) : Rbc :=
  if kind = .ack then b.raiseTxForAck else b.raiseTx

/-- The attempt's frame after the error: the third ACK error ends it SENT_UNHEARD; else it is kept for a retry, or its
held abort is granted (R82, R93). -/
def State.afterError (kind : ErrorKind) (t : Slot) (s : State) : State :=
  if kind = .ack then
    if 3 ≤ t.unacked + 1 then s.concludeSending t else s.endAttempt (t.unacked + 1)
  else s.endAttempt t.unacked

/-- Entry to BUS_OFF, if the counters have just brought it: the recovery count starts, every RELEASE is dropped, and solo
mode begins unless it held already (R88, R89, R94, R117). -/
def State.enterBusOff (before s : State) : State :=
  if s.rbc.busOff && !before.rbc.busOff then
    let dropped := ({ s with rbc := { s.rbc with recovery := 0 } } : State).dropReleases
    if before.solo then dropped else dropped.enterSolo
  else s

/-- TRANSMIT_ERROR: the attempt ends; TEC rises, the station signals by the state it held, the frame waits for its retry
or ends SENT_UNHEARD, and TEC at 192 enters BUS_OFF (R82 to R86, R88, R89). -/
def execTransmitError (kind : ErrorKind) (s : State) (read : List Bool := []) (echo : BitVec 8 := 0) :
    Outcome State Fault Refusal :=
  match s.rbc.sendingSlot with
  | none => .next s
  | some t =>
    if kind.byTransmitter && !s.rbc.stuck && s.rbc.losesAttempt kind t.frame read then
      let wire := (s.rbc.readFailedAttempt read echo).countFailedAttempt kind
      .next (s.settle (s.enterBusOff (({ s with rbc := wire.suspendIfPassive } : State).afterError kind t)))
    else .next s

/-- PASSIVE_SUSPEND_END: eight recessive bits since the bus became idle, 19 in all (R85). -/
def execPassiveSuspendEnd (s : State) : Outcome State Fault Refusal :=
  if s.rbc.suspend && s.rbc.listens && s.rbc.idle then
    .next { s with rbc := { s.rbc.readRecessiveTo (max 19 s.rbc.recessiveRun) with suspend := false } }
  else .next s

/-- STUCK_ENTRY: the 64th dominant bit: sending and receiving are abandoned, every RELEASE is dropped, and solo mode
begins unless it held already; counters stay (R90, R94, R117). -/
def execStuckEntry (s : State) : Outcome State Fault Refusal :=
  if s.rbc.joined && !s.rbc.stuck then
    let ended := s.endAttempt s.sendingUnacked
    let stuck : State := { ended with rbc := { ended.rbc with
      stuck := true, receiving := false, dominantRun := 64, recessiveRun := 0, recovery := 0 } }
    let dropped := stuck.dropReleases
    .next (s.settle (if s.solo then dropped else dropped.enterSolo))
  else .next s

/-- STUCK_EXIT: 11 recessive bits: the station returns to its confinement state, and solo mode ends unless that is
BUS_OFF, whose recovery count has counted those bits (R89, R90, R116). -/
def execStuckExit (s : State) : Outcome State Fault Refusal :=
  if s.rbc.stuck then
    let freed : State := { s with rbc := { s.rbc with
      stuck := false, recessiveRun := 11, dominantRun := 0, recovery := if s.rbc.busOff then 11 else 0 } }
    .next (s.settle (if s.rbc.busOff then freed else freed.leaveSolo))
  else .next s

/-- BUS_OFF_RECOVERY: the recovery count reaches 2048: both counters are 0, the state is ERROR_ACTIVE, and solo mode ends
(R89, R116). -/
def execBusOffRecovery (s : State) (read : List Bool := []) : Outcome State Fault Refusal :=
  if s.rbc.busOff && !s.rbc.stuck && decide ((s.rbc.readBits read).recovery = 2048) then
    .next (s.settle ({ s with rbc := { s.rbc.readBits read with
      txErrors := 0, rxErrors := 0, recovery := 0, receiving := false } } : State).leaveSolo)
  else .next s

end Sys2Proof.Machine
end

