-- ==== Sys2Proof/Machine/Call.lean ====
section
/-! DEFINITION. The call: barge clearing, dial tone, digits, the handshake, sending, the kiss-off, the line-lost timer and
the hang-up hold (Chapter 7). An arm acts only while the timer or the condition it names stands. -/

namespace Sys2Proof.Machine

open Host

namespace State

/-- The Call Engine runs a given timer in a given state. -/
def timing (state : CallState) (timer : CallTimer) (s : State) : Bool :=
  decide (s.call.state = state ∧ s.call.timer = some timer)

/-- The digits dialled: number 1, or number 2 where the lead's index is 1 and number 2 is not empty (R130). -/
def numberToDial (s : State) : List DialDigit :=
  match s.callLead with
  | some r =>
    if r.second && !s.loader.settings.number2.isEmpty then s.loader.settings.number2 else s.loader.settings.number1
  | none => s.loader.settings.number1

/-- The next digit, in order, with the generator silent for a pause; after the last, HANDSHAKE with its wait and a busy
count of 0 (R121, R122, R131, R132). -/
def dialFrom (digits : List DialDigit) (s : State) : State :=
  match digits with
  | [] =>
    { s with
      call := { s.call with state := .handshake, timer := some .handshakeWait, digits := [] }
      tone := { s.tone with busyCycles := 0, dialHalf := false } }
  | .pause :: rest => { s with call := { s.call with timer := some .digit, digits := .pause :: rest } }
  | .digit d :: rest =>
    { s with
      call := { s.call with timer := some .digit, digits := .digit d :: rest }
      tone := { s.tone with cls := .none } }

/-- The dial-tone success: F of the line is 0 (R69, R128). -/
def lineProved (s : State) : State :=
  match s.call.line with
  | some k => { s with view := s.view.update k fun e => { e with failures := 0 } }
  | none => s

/-- DIAL entered (R128, R130). -/
def enterDial (s : State) : State :=
  ({ s with call := { s.call with state := .dial } } : State).dialFrom s.numberToDial

end State

/-- BARGE_CLEARING_END: HOOKk closes, and the dial-tone wait and the watch start (R127 to R129). -/
def execBargeClearingEnd (s : State) : Outcome State Fault Refusal :=
  match s.call.line with
  | some k => if s.timing .seize .bargeClearing then .next (s.closeHook k) else .next s
  | none => .next s

/-- DIAL_TONE_JUDGED: DIAL for 1 s: F of the line is 0, its trouble flag is recomputed, and DIAL is entered (R69, R70,
R128). -/
def execDialToneJudged (s : State) : Outcome State Fault Refusal :=
  if s.timing .seize .dialToneWait && decide (s.tone.cls = .dial) then
    .next (s.settle (s.lineProved.enterDial).refreshTrouble)
  else .next s

/-- DIAL_TONE_WAIT_EXPIRY: NO_DIAL_TONE (R128). -/
def execDialToneWaitExpiry (s : State) : Outcome State Fault Refusal :=
  if s.timing .seize .dialToneWait then .next (s.settle (s.hangUp .noDialTone)) else .next s

/-- DIGIT_END: the next digit, or HANDSHAKE after the last (R131, R132). -/
def execDigitEnd (s : State) : Outcome State Fault Refusal :=
  if s.timing .dial .digit then .next (s.dialFrom s.call.digits.tail) else .next s

/-! ### The tone detector (R121, R122) -/

/-- A period that can be part of a busy cycle: 200 ms to 600 ms (R122). -/
def busyPeriod (ms : Nat) : Bool := decide (200 ≤ ms ∧ ms ≤ 600)

/-- The busy count as a period ends and the class becomes `next` (R122). -/
def Tone.countPeriod (next : ToneClass) (ms : Nat) (t : Tone) : Tone :=
  match t.cls, next with
  | .dial, .none =>
    if busyPeriod ms then { t with dialHalf := true } else { t with busyCycles := 0, dialHalf := false }
  | .none, .dial =>
    if busyPeriod ms then { t with busyCycles := if t.dialHalf then min 3 (t.busyCycles + 1) else t.busyCycles,
                                   dialHalf := false }
    else { t with busyCycles := 0, dialHalf := false }
  | _, _ => { t with busyCycles := 0, dialHalf := false }

/-- The class becomes `next`, the period of the class before having lasted `ms`; the count is kept in HANDSHAKE, where it
is read (R121, R122; log entry 16). -/
def State.hear (next : ToneClass) (ms : Nat) (s : State) : State :=
  if s.call.state = .handshake then { s with tone := { s.tone.countPeriod next ms with cls := next } }
  else { s with tone := { s.tone with cls := next } }

/-- TONE_CLASS_CHANGE: the class is now another; a class heard in the silence after a tone stands until the generator
sends again (R121 to R123; log entry 18). -/
def execToneClassChange (audio : List Nat) (ms : Nat) (s : State) (silent : Bool := false) :
    Outcome State Fault Refusal :=
  if s.hearing && decide (s.classHeard audio silent ≠ s.tone.cls) then .next (s.hear (s.classHeard audio silent) ms)
  else .next s

/-- TONE_GAP_LIMIT: a gap has lasted 30 ms: the class is NONE, and the tone's period ended where the gap began (R121,
R122). -/
def execToneGapLimit (ms : Nat) (s : State) : Outcome State Fault Refusal :=
  if s.hearing && decide (s.tone.cls ≠ .none) then .next (s.hear .none ms) else .next s

/-- BUSY_PERIOD_LIMIT: a period of DIAL or NONE has run past 600 ms: the count is 0 (R122). -/
def execBusyPeriodLimit (s : State) : Outcome State Fault Refusal :=
  if s.call.state = .handshake ∧ (s.tone.cls = .dial ∨ s.tone.cls = .none) then
    .next { s with tone := { s.tone with busyCycles := 0, dialHalf := false } }
  else .next s

/-- The report of BUSY_CADENCE is made: the count is 0 (R122). -/
def State.cadenceReported (s : State) : State := { s with tone := { s.tone with busyCycles := 0 } }

/-- BUSY_CADENCE: the third cycle: CENTRE_BUSY before the handshake is judged; during the settle it is not read (R122,
R132). -/
def execBusyCadence (s : State) : Outcome State Fault Refusal :=
  if s.call.state = .handshake ∧ s.tone.busyCycles = 3 then
    if s.timing .handshake .handshakeWait then .next (s.settle (s.cadenceReported.hangUp .centreBusy))
    else .next s.cadenceReported
  else .next s

/-! ### Handshake to kiss-off -/

/-- HANDSHAKE_JUDGED: HANDSHAKE for 300 ms: the wait stops and the settle runs (R132). -/
def execHandshakeJudged (s : State) : Outcome State Fault Refusal :=
  if s.timing .handshake .handshakeWait && decide (s.tone.cls = .handshake) then
    .next { s with call := { s.call with timer := some .settle } }
  else .next s

/-- HANDSHAKE_WAIT_EXPIRY: NO_HANDSHAKE (R132). -/
def execHandshakeWaitExpiry (s : State) : Outcome State Fault Refusal :=
  if s.timing .handshake .handshakeWait then .next (s.settle (s.hangUp .noHandshake)) else .next s

/-- SETTLE_END: SEND, with the record in hand (R132, R133). -/
def execSettleEnd (s : State) : Outcome State Fault Refusal :=
  match s.callInHand with
  | some r => if s.timing .handshake .settle then .next (s.enterSend r) else .next s
  | none => .next s

/-- SEND_END: the last symbol's silence ends: KISSOFF and its wait (R133, R134). -/
def execSendEnd (s : State) : Outcome State Fault Refusal :=
  if s.timing .send .symbols then
    .next { s with call := { s.call with state := .kissoff, timer := some .kissoffWait, block := [] } }
  else .next s

/-- The next record of the batch: IN_CALL and in hand, with the between-messages interval (R24, R135). -/
def State.takeNext (r : Record) (s : State) : State :=
  { s with
    queue := s.queue.modify r.order fun x => { x with state := .inCall }
    call := { s.call with inHand := some r.order, sends := 0, timer := some .betweenMessages } }

/-- What follows a delivery, on the queue as it has left it (R135). -/
def State.afterDelivery (s : State) : State :=
  if s.call.yieldPending then s.hangUp .preempted
  else if s.call.batch < 6 then
    match firstOf s.time (s.queue.records.filter Record.waiting) with
    | some next => s.takeNext next
    | none => s.hangUp .done
  else s.hangUp .done

/-- The delivery of the record in hand: removed, batch count up by one, nothing in hand (R134). -/
def State.deliverInHand (r : Record) (s : State) : State :=
  { s.deliver r with call := { s.call with inHand := none, batch := min 6 (s.call.batch + 1), timer := none } }

/-- KISSOFF_JUDGED: KISSOFF for 400 ms: the record in hand is delivered, and the call yields, goes on or ends (R34, R134,
R135). -/
def execKissoffJudged (s : State) : Outcome State Fault Refusal :=
  match s.callInHand with
  | some r =>
    if s.timing .kissoff .kissoffWait && decide (s.tone.cls = .kissoff) then
      .next (s.settle (s.deliverInHand r).afterDelivery)
    else .next s
  | none => .next s

/-- KISSOFF_WAIT_EXPIRY: a resend of the same record below four sends, else NO_KISSOFF (R136). -/
def execKissoffWaitExpiry (s : State) : Outcome State Fault Refusal :=
  match s.callInHand with
  | some r =>
    if s.timing .kissoff .kissoffWait then
      if s.call.sends < 4 then .next (s.enterSend r) else .next (s.settle (s.hangUp .noKissoff))
    else .next s
  | none => .next s

/-- BETWEEN_MESSAGES_END: SEND, with the new record in hand (R133, R135). -/
def execBetweenMessagesEnd (s : State) : Outcome State Fault Refusal :=
  match s.callInHand with
  | some r => if s.timing .kissoff .betweenMessages then .next (s.enterSend r) else .next s
  | none => .next s

/-! ### The end of the call -/

/-- LINE_LOST_TIMER_EXPIRY: NO_BATTERY for 400 ms with HOOK closed: LINE_LOST (R129). -/
def execLineLostTimerExpiry (s : State) : Outcome State Fault Refusal :=
  if s.call.lineLost then .next (s.settle (s.hangUp .lineLost)) else .next s

/-- HANG_UP_HOLD_END: the own fields clear, the engine enters IDLE, and the candidate choice is taken (R66, R100, R108,
R140, R164). -/
def execHangUpHoldEnd (s : State) : Outcome State Fault Refusal :=
  match s.call.line with
  | some k => if s.timing .hangup .hold then .next (s.settle (s.clearOwnFields k).enterIdle) else .next s
  | none => .next s

end Sys2Proof.Machine
end

