-- ==== Sys2Proof/Machine/Carry.lean ====
section
/-! DEFINITION. The timers of the Carry Unit and of the Indication Unit: OFFER_WINDOW_EXPIRY, ACCEPT_PENDING_TIMEOUT
(Chapter 8), STATE_SPACING_EXPIRY (Chapter 10). -/

namespace Sys2Proof.Machine

open Host

/-- The next-offer time of an own record (R148). -/
def offerAgainAt (time : Nat) (r : Record) : Record :=
  match r.kind with
  | .own o => { r with kind := .own { o with nextOffer := time } }
  | .carried _ => r

/-- The offered record after an unanswered offer: next offered in 60 s, an attempt counted at a station that cannot dial
(R148). -/
def State.countUnanswered (r : Record) (s : State) : State × List Event :=
  if s.cannotDial then s.countAttempt r (offerAgainAt (s.time + 60))
  else ({ s with queue := s.queue.modify r.order (offerAgainAt (s.time + 60)) }, [])

/-- An offer ended unanswered: absent, its record counted, then back to WAITING with the join of R25; the events of the
count follow (R36, R148; log entry 10). -/
def State.offerUnanswered (o : Offer) (s : State) : State :=
  let ended : State := { s with carry := { s.carry with offer := none } }
  match s.queue.findSeq o.seq with
  | none => ended
  | some r =>
    let counted := ended.countUnanswered r
    ({ counted.1 with queue := counted.1.queue.giveBack s.time r.order } : State).raiseAll counted.2

/-- OFFER_WINDOW_EXPIRY: no ACCEPT was taken, and R146 is taken again at once (R148). -/
def execOfferWindowExpiry (s : State) : Outcome State Fault Refusal :=
  match s.carry.offer with
  | some o => if o.phase = .window then .next (s.settle (s.offerUnanswered o)) else .next s
  | none => .next s

/-- ACCEPT_PENDING_TIMEOUT: the marker's 2 s have run (R155). -/
def execAcceptPendingTimeout (s : State) : Outcome State Fault Refusal :=
  if s.carry.accept.isSome then .next (s.settleFrames s.endAccept) else .next s

/-- STATE_SPACING_EXPIRY: the 2 s since the last STATE have run; one is owed if the flag is set (R175). -/
def execStateSpacingExpiry (s : State) : Outcome State Fault Refusal :=
  if s.ind.spacing then .next (s.settleFrames { s with ind := { s.ind with spacing := false } }) else .next s

end Sys2Proof.Machine
end

