-- ==== Sys2Proof/Machine/Clock.lean ====
section
/-! DEFINITION. The Clock Unit's steps: WARM_TIME_REACHED, OSCILLATOR_STEADY, FAST_CLOCK_FAIL, FAST_CLOCK_RELEASE
(Chapter 9). -/

namespace Sys2Proof.Machine

open Host

/-- The fast clock becomes ACTIVE, the tone path is connected, and fast-ready is reported (R162). -/
def State.clockReady (s : State) : State :=
  ({ s with clock := { s.clock with state := .active, warmTimer := .absent, steady := true } } : State).reportFastReady

/-- WARM_TIME_REACHED: ready if the oscillator check reports steady at this moment, else from now at the moment it does
(R161, R162). -/
def execWarmTimeReached (hertz : Nat) (s : State) : Outcome State Fault Refusal :=
  if s.clock.state = .warming ∧ s.clock.warmTimer = .running then
    if oscillatorCheck hertz then .next s.clockReady
    else .next { s with clock := { s.clock with warmTimer := .passed, steady := false } }
  else .next s

/-- OSCILLATOR_STEADY: ready if the warm time has run; a steady report before that does not shorten it (R162). -/
def execOscillatorSteady (s : State) : Outcome State Fault Refusal :=
  if s.clock.state = .warming then
    if s.clock.warmTimer = .passed then .next s.clockReady
    else .next { s with clock := { s.clock with steady := true } }
  else .next s

/-- The Clock Unit after the 200 ms limit: QUIET with the latch set (R163). -/
def State.clockFailed (s : State) : State :=
  { s with clock := { s.clock with state := .quiet, latch := true, warmTimer := .absent, steady := false } }

/-- The claim abandoned for the failure, its RELEASE owed if its CLAIM has ended on the bus (R115). -/
def State.abandonForClock (k : LineId) (s : State) : State :=
  if (s.entry k).ownGuard = .absent then s.abandonInClaim k else (s.abandonInClaim k).oweRelease k .abandoned

/-- FAST_CLOCK_FAIL: the latch is set until reset; a claim in CLAIM is abandoned; in IDLE there is nothing to abandon
(R115, R126, R163). In HANGUP, which a yield in CLAIM reaches with the clock still WARMING, the latch is set and the hold
runs on: R115 says that this does not arise, and this is the model's choice (log entry 32). -/
def execFastClockFail (s : State) : Outcome State Fault Refusal :=
  if s.clock.state = .warming then
    match s.call.state, s.call.line with
    | .claim, some k => .next (s.settle (s.clockFailed.abandonForClock k))
    | _, _ => .next (s.settle s.clockFailed)
  else .next s

/-- FAST_CLOCK_RELEASE: the release timer reaches 5 s; an ACTIVE clock is released and the detector's class is NONE; in
QUIET the expiry does nothing (R121, R164). -/
def execFastClockRelease (s : State) : Outcome State Fault Refusal :=
  if s.clock.releaseTimer then
    if s.clock.state = .active then
      .next { s with
        clock := { s.clock with state := .quiet, releaseTimer := false, steady := false }
        tone := { s.tone with cls := .none } }
    else .next { s with clock := { s.clock with releaseTimer := false } }
  else .next s

end Sys2Proof.Machine
end

