-- ==== Sys2Proof/Machine/Lines.lean ====
section
/-! DEFINITION. Line sensing and the timers of the line view: LINE_SAMPLE_PASS, DEAD_TIMER_EXPIRY,
ALL_DEAD_TIMER_EXPIRY, PEER_IDLE_LIMIT, PENDING_GUARD_PASSES, OWN_GUARD_PASSES, YIELD_LIMIT_EXPIRY, YIELD_WAIT_EXPIRY
(Chapters 4 and 6). -/

namespace Sys2Proof.Machine

open Host

/-- The entries after a pass: every wired line sampled (R55, R56). -/
def sampledEntries (volts : Four Int) (s : State) : Four Entry :=
  s.view.entries.mapLines fun k e => if e.wired then e.sample (lineBand (volts.get k)) else e

/-- The pass has changed a sense. -/
def senseChanged (old new : Four Entry) : Bool :=
  LineId.all.any fun k => decide ((old.get k).sense ≠ (new.get k).sense)

/-- The line whose HOOK is closed has changed to a sense. -/
def heldLineTurned (b : LineBand) (before after : State) : Bool :=
  match before.call.line with
  | some k => before.hookClosed k && decide ((before.entry k).sense ≠ (after.entry k).sense)
      && decide ((after.entry k).sense = some b)
  | none => false

/-- The line-lost watch after a pass: NO_BATTERY starts the timer, a sense that leaves it removes it (R129). -/
def watchLine (before after : State) : State :=
  if heldLineTurned .noBattery before after then { after with call := { after.call with lineLost := true } }
  else if heldLineTurned .offHook before after then { after with call := { after.call with lineLost := false } }
  else after

/-- LINE_SAMPLE_PASS: the wired lines sampled together; a changed sense moves the dead flag, the timers and the watch,
and a turn to ON_HOOK with HOOK closed loses the line (R55 to R58, R64, R70, R129). Where the pass loses the line and
changes the trouble flag of another line too, that the other line's event is admitted after the HANGUP step is the
model's choice (R9, R139; log entry 35). Sampling begins with a verified image (R55, R170). -/
def execLineSamplePass (volts : Four Int) (s : State) : Outcome State Fault Refusal :=
  if s.loader.verified then
    let sampled : State := { s with view := { s.view with entries := sampledEntries volts s } }
    if senseChanged s.view.entries (sampledEntries volts s) then
      let timed : State := { sampled with view := sampled.view.timeAllDead }
      if heldLineTurned .onHook s timed then .next (s.settle (timed.hangUp .lineLost))
      else .next (s.settle (watchLine s timed).refreshTrouble)
    else .next sampled
  else .next s

/-- DEAD_TIMER_EXPIRY: the dead flag is set and the trouble flag recomputed (R57, R58, R70). -/
def execDeadTimerExpiry (k : LineId) (s : State) : Outcome State Fault Refusal :=
  if (s.entry k).deadTimer then
    .next (s.settle ({ s with
      view := (s.view.update k fun e => { e with dead := true, deadTimer := false }).timeAllDead } :
      State).refreshTrouble)
  else .next s

/-- ALL_DEAD_TIMER_EXPIRY: the station is all-dead (R58). -/
def execAllDeadTimerExpiry (s : State) : Outcome State Fault Refusal :=
  if s.view.allDead = .running then .next (s.settle { s with view := { s.view with allDead := .passed } })
  else .next s

/-- PEER_IDLE_LIMIT: the on-hook timer reaches 10 s and the holder is cleared (R63, R65, R112). -/
def execPeerIdleLimit (k : LineId) (s : State) : Outcome State Fault Refusal :=
  if (s.entry k).onHookTimer then .next (s.settle (s.holderGone k)) else .next s

/-- A pending claim's guard is running. -/
def guardRunning (e : Entry) : Bool :=
  match e.pending with
  | some p => !p.guardPassed
  | none => false

/-- PENDING_GUARD_PASSES: promotion with no holder, else the yield limit (R106). -/
def execPendingGuardPasses (k : LineId) (s : State) : Outcome State Fault Refusal :=
  if guardRunning (s.entry k) then .next (s.settle { s with view := s.view.update k Entry.passGuard }) else .next s

/-- OWN_GUARD_PASSES: own-guard-done is set; with no holder on the entry guard-done is reported (R104). -/
def execOwnGuardPasses (s : State) : Outcome State Fault Refusal :=
  match s.view.ownLine with
  | some k =>
    if (s.entry k).ownGuard = .running then
      let passed : State := { s with view := s.view.update k Entry.passOwnGuard }
      .next (s.settle (if (s.entry k).holder.isNone then passed.reportGuardDone else passed))
    else .next s
  | none => .next s

/-- A pending claim's yield limit is running. -/
def yieldLimitRunning (e : Entry) : Bool :=
  match e.pending with
  | some p => p.yieldLimit
  | none => false

/-- YIELD_LIMIT_EXPIRY: the holder is cleared and the pending claim promoted in the same step (R106). -/
def execYieldLimitExpiry (k : LineId) (s : State) : Outcome State Fault Refusal :=
  if yieldLimitRunning (s.entry k) then .next (s.settle { s with view := s.view.update k Entry.passYieldLimit })
  else .next s

/-- YIELD_WAIT_EXPIRY: a claim that waits on a holder clears it from its own entry and is ready (R112). -/
def execYieldWaitExpiry (s : State) : Outcome State Fault Refusal :=
  match s.view.ownLine with
  | some k =>
    if s.call.state = .claim ∧ (s.entry k).waitingOnHolder ∧ (s.entry k).ownGuard = .passed then
      .next (s.settle (s.holderGone k))
    else .next s
  | none => .next s

end Sys2Proof.Machine
end

