-- ==== Sys2Proof/Machine/Received.lean ====
section
/-! DEFINITION. Frames received from peers: CLAIM, OBJECT, RELEASE, OFFER, ACCEPT, CARRY, OUTCOME and STATE_RECEIVED. The
counters, the address clash and the ranges are `receiveFrame`'s; here is what the receiving block does (R97). -/

namespace Sys2Proof.Machine

open Host

namespace State

/-- The Call Engine holds a line or a claim past its placement: the states in which R107 and R111 apply. -/
def defends (s : State) : Bool :=
  match s.call.state with
  | .claim => true
  | .seize => true
  | .dial => true
  | .handshake => true
  | .send => true
  | .kissoff => true
  | .idle => false
  | .hangup => false

/-- A CLAIM applied to an entry as at any observer (R105). -/
def recordClaim (f : ClaimFields) (s : State) : State :=
  { s with view := s.view.update f.line (Entry.observeClaim f.addr f.key) }

/-- The own claim given up for a CLAIM heard in its placed phase: abandoned, the CLAIM recorded, the choice taken afresh
(R103). -/
def surrenderTo (f : ClaimFields) (s : State) : State := ((s.dropClaim f.line).recordClaim f).rechoose

/-- A CLAIM heard on the own line in a later phase: yielded to, or objected to (R107, R111). -/
def answerClaim (f : ClaimFields) (s : State) : State :=
  if qualifies f.key ((s.entry f.line).ownKey.getD 0) then (s.recordClaim f).setYield else s.oweObject f.line

/-- A CLAIM delivered to the Line Coordinator (R103, R105, R107, R111). A line that is not wired ignores it (R61). -/
def takeClaim (f : ClaimFields) (s : State) : State :=
  if !(s.entry f.line).wired then s
  else if (s.entry f.line).own && s.defends then
    if s.call.state = .claim ∧ (s.entry f.line).placed then s.surrenderTo f else s.answerClaim f
  else s.recordClaim f

/-- What an OBJECT on the own line does to the call (R110). -/
def takeObjection (k : LineId) (s : State) : State :=
  match s.call.state with
  | .claim => s.abandonInClaim k
  | .seize => s.hangUp .abandoned
  | .dial => s.hangUp .abandoned
  | .handshake => s.hangUp .abandoned
  | .send => s
  | .kissoff => s
  | .idle => s
  | .hangup => s

/-- An OBJECT delivered to the Line Coordinator: the view first, then the call (R109, R110). -/
def takeObject (f : ClaimFields) (s : State) : State :=
  if !(s.entry f.line).wired then s
  else
    let viewed : State := { s with view := s.view.update f.line (Entry.observeObject f.addr f.key) }
    if (s.entry f.line).own then viewed.takeObjection f.line else viewed

/-- A RELEASE delivered to the Line Coordinator; the reason changes nothing (R112, R114). -/
def takeRelease (f : ReleaseFields) (s : State) : State :=
  if !(s.entry f.line).wired then s
  else if (s.entry f.line).heldBy f.addr then s.holderGone f.line
  else { s with view := s.view.update f.line (Entry.observeRelease f.addr) }

/-- The accept-pending marker becomes held for an offer, and its ACCEPT owed (R49, R154). -/
def bid (f : OfferFields) (score : Nat) (s : State) : State :=
  { s with
    carry := { s.carry with accept := some ⟨f.origin, f.seq, acceptValue score s.address⟩ }
    rbc := s.rbc.owe (.accept f.origin f.seq (acceptValue score s.address)) }

/-- An OFFER delivered to the Carry Unit: bid for, by a station eligible to accept (R154). -/
def takeOffer (f : OfferFields) (s : State) : State :=
  if s.eligible && s.carry.accept.isNone then
    match s.view.bestScore with
    | some score => s.bid f score
    | none => s
  else s

/-- The accept-pending marker is for a given record. -/
def bidsFor (origin : Nat) (seq : Byte) (s : State) : Bool :=
  match s.carry.accept with
  | some a => decide (a.origin = origin ∧ a.seq = seq)
  | none => false

/-- The marker for a record another station has won or the origin has committed ends (R155 events 1 and 2). -/
def dropBid (origin : Nat) (seq : Byte) (s : State) : State := if s.bidsFor origin seq then s.endAccept else s

/-- The outstanding offer is in its window and of a given seq. -/
def windowFor (seq : Byte) (s : State) : Bool :=
  match s.carry.offer with
  | some o => decide (o.seq = seq ∧ o.phase = .window)
  | none => false

/-- The first ACCEPT for the outstanding offer: the window stops and a CARRY is owed (R149). -/
def acceptOffer (f : AcceptFields) (s : State) : State :=
  match s.carry.offer with
  | some o =>
    { s with
      carry := { s.carry with offer := some { o with phase := .carrying f.sender } }
      rbc := s.rbc.owe (.carry o.seq f.sender) }
  | none => s

/-- An ACCEPT delivered to the Carry Unit (R149, R155). -/
def takeAccept (f : AcceptFields) (s : State) : State :=
  if f.origin = s.address then (if s.windowFor f.seq then s.acceptOffer f else s) else s.dropBid f.origin f.seq

/-- The carried record that a CARRY repeats (R156). -/
def repeatsCarried (f : CarryFields) (r : Record) : Bool :=
  match r.kind with
  | .own _ => false
  | .carried c =>
    !c.orphaned && decide (c.origin = f.origin ∧ c.originSeq = f.seq ∧ r.cls = f.cls ∧ r.source = f.source
      ∧ r.qualifier = f.qualifier)

/-- A CARRY addressed to this station: a duplicate, admitted, or returned for want of room (R156). -/
def takeInCarry (f : CarryFields) (s : State) : State :=
  if s.queue.records.any (repeatsCarried f) then s
  else if s.queue.hasRoom then { s with queue := s.queue.takeCarried s.time f }
  else { s with carry := s.carry.addOutcome f.origin f.seq .returned }

/-- A CARRY delivered to the Carry Unit; ignored in CONFIG_FAULT where it is addressed here (R155, R156). -/
def takeCarry (f : CarryFields) (s : State) : State :=
  let ended := s.dropBid f.origin f.seq
  if f.acceptor = s.address && !s.loader.configFault then ended.takeInCarry f else ended

/-- An OUTCOME DELIVERED for an own record that is not in a call: removed as delivered, its offer ended with it (R35,
R151). -/
def outcomeDelivered (r : Record) (s : State) : State :=
  match r.state with
  | .inCall => s
  | .waiting => s.deliver r
  | .handed _ _ => s.deliver r
  | .offered _ => s.endOffer.deliver r

/-- An OUTCOME RETURNED from the carrier that a record was HANDED to: WAITING again from now (R152). -/
def outcomeReturned (sender : Nat) (r : Record) (s : State) : State :=
  match r.state with
  | .handed carrier _ =>
    if carrier = sender then
      { s with queue := (s.queue.modify r.order fun x => { x with notBefore := s.time }).giveBack s.time r.order }
    else s
  | .waiting => s
  | .offered _ => s
  | .inCall => s

/-- An OUTCOME delivered to the Carry Unit (R152). -/
def takeOutcome (f : OutcomeFields) (s : State) : State :=
  if f.origin = s.address then
    match s.queue.findSeq f.seq with
    | some r =>
      match f.result with
      | .delivered => s.outcomeDelivered r
      | .returned => s.outcomeReturned f.sender r
    | none => s
  else s

/-- A carried record of a restarted origin becomes an orphan (R23, R159). -/
def orphan (origin : Nat) (r : Record) : Record :=
  match r.kind with
  | .own _ => r
  | .carried c => if c.origin = origin then { r with kind := .carried { c with orphaned := true } } else r

/-- The OUTCOMEs owed to a restarted origin withdrawn, or their aborts requested (R159). -/
def dropOutcomes (origin : Nat) (s : State) : State :=
  ({ s with carry := { s.carry with
      outcomes := s.carry.outcomes.filter fun e => decide (e.origin ≠ origin) || e.inSlot } } : State).cancel
    (Marker.answers origin)

/-- A STATE with the fresh-start mark: its three parts in one step; any other changes nothing (R159). -/
def takeState (f : StateFields) (s : State) : State :=
  if f.fresh then
    let marked : State := ({ s with queue := { s.queue with
      records := s.queue.records.map (orphan f.sender) } } : State).dropOutcomes f.sender
    match marked.carry.accept with
    | some a => if a.origin = f.sender then marked.endAccept else marked
    | none => marked
  else s

end State

/-- CLAIM_RECEIVED (R87, R96, R103, R105, R107, R111). -/
def execClaimReceived (value : BitVec 13) (payload : BitVec 8) (s : State) (acked : Bool := true) :
    Outcome State Fault Refusal :=
  .next (s.receiveFrame (receivedFrame .claim value payload) acked (readClaim value payload) fun f t =>
    t.settle (t.takeClaim f))

/-- OBJECT_RECEIVED (R87, R96, R109, R110). -/
def execObjectReceived (value : BitVec 13) (payload : BitVec 16) (s : State) (acked : Bool := true) :
    Outcome State Fault Refusal :=
  .next (s.receiveFrame (receivedFrame .object value payload) acked (readObject value payload) fun f t =>
    t.settle (t.takeObject f))

/-- RELEASE_RECEIVED (R87, R96, R114). -/
def execReleaseReceived (value : BitVec 13) (payload : BitVec 16) (s : State) (acked : Bool := true) :
    Outcome State Fault Refusal :=
  .next (s.receiveFrame (receivedFrame .release value payload) acked (readRelease value payload) fun f t =>
    t.settle (t.takeRelease f))

/-- OFFER_RECEIVED (R87, R96, R154). -/
def execOfferReceived (value : BitVec 13) (payload : BitVec 8) (s : State) (acked : Bool := true) :
    Outcome State Fault Refusal :=
  .next (s.receiveFrame (receivedFrame .offer value payload) acked (readOffer value payload) fun f t =>
    t.settleFrames (t.takeOffer f))

/-- ACCEPT_RECEIVED (R87, R96, R149, R155). -/
def execAcceptReceived (value : BitVec 13) (payload : BitVec 16) (s : State) (acked : Bool := true) :
    Outcome State Fault Refusal :=
  .next (s.receiveFrame (receivedFrame .accept value payload) acked (readAccept value payload) fun f t =>
    t.settleFrames (t.takeAccept f))

/-- CARRY_RECEIVED (R87, R96, R155, R156). -/
def execCarryReceived (value : BitVec 13) (payload : BitVec 72) (s : State) (acked : Bool := true) :
    Outcome State Fault Refusal :=
  .next (s.receiveFrame (receivedFrame .carry value payload) acked (readCarry value payload) fun f t =>
    t.settle (t.takeCarry f))

/-- OUTCOME_RECEIVED (R87, R96, R152). -/
def execOutcomeReceived (value : BitVec 13) (payload : BitVec 24) (s : State) (acked : Bool := true) :
    Outcome State Fault Refusal :=
  .next (s.receiveFrame (receivedFrame .outcome value payload) acked (readOutcome value payload) fun f t =>
    t.settle (t.takeOutcome f))

/-- STATE_RECEIVED (R87, R96, R159). -/
def execStateReceived (value : BitVec 13) (payload : BitVec 32) (s : State) (acked : Bool := true) :
    Outcome State Fault Refusal :=
  .next (s.receiveFrame (receivedFrame .state value payload) acked (readState value payload) fun f t =>
    t.settleFrames (t.takeState f))

end Sys2Proof.Machine
end

