-- ==== Sys2Proof/Machine/Sent.lean ====
section
/-! DEFINITION. The station's own frames ended on the bus, acknowledged: CLAIM, OBJECT, RELEASE, OFFER, ACCEPT, CARRY,
OUTCOME and STATE_SENT. Each empties its slot with outcome SENT and tells its owner; `State.frameEnded` holds what each
owner does (R82, R86, R91, R94). -/

namespace Sys2Proof.Machine

open Host

/-- CLAIM_SENT: the own guard starts (R104). -/
def execClaimSent (s : State) : Outcome State Fault Refusal := .next (s.sent .claim)

/-- OBJECT_SENT: the marker clears (R108). -/
def execObjectSent (s : State) : Outcome State Fault Refusal := .next (s.sent .object)

/-- RELEASE_SENT: the marker clears, and one that waited for it is owed (R113). -/
def execReleaseSent (s : State) : Outcome State Fault Refusal := .next (s.sent .release)

/-- OFFER_SENT: the offer window starts (R147). -/
def execOfferSent (s : State) : Outcome State Fault Refusal := .next (s.sent .offer)

/-- ACCEPT_SENT: the accept-pending marker stays (R155). -/
def execAcceptSent (s : State) : Outcome State Fault Refusal := .next (s.sent .accept)

/-- CARRY_SENT: the record is HANDED and the offer ends (R150). -/
def execCarrySent (s : State) : Outcome State Fault Refusal := .next (s.sent .carry)

/-- OUTCOME_SENT: the entry leaves the outcome list (R157). -/
def execOutcomeSent (s : State) : Outcome State Fault Refusal := .next (s.sent .outcome)

/-- STATE_SENT: the spacing timer starts, and the fresh-start mark clears if the frame carried it (R175). -/
def execStateSent (s : State) : Outcome State Fault Refusal := .next (s.sent .state)

end Sys2Proof.Machine
end

