-- ==== Sys2Proof/Machine/Startup.lean ====
section
/-! DEFINITION. Reset and start-up: RESET, RELEASE_OF_RESET, CONFIG_READ_DONE (Chapter 9). -/

namespace Sys2Proof.Machine

open Host

/-- RESET: every block takes its reset values at once (R165; R39, R74, R98, R118, R144, R145, R161, R176). The commands
that wait and the model's own counter are no part of the station (log entry 21). -/
def execReset (s : State) : Outcome State Fault Refusal :=
  .next { State.reset with free := s.free, pending := s.pending }

/-- RELEASE_OF_RESET: station time starts from 0, the straps are read once, an address of 0 enters CONFIG_FAULT, and the
configuration read begins (R40, R165, R166, R167, R171). -/
def execReleaseOfReset (straps : BitVec 4) (s : State) : Outcome State Fault Refusal :=
  if s.loader.inReset then
    .next (s.settleFrames { s with
      time := 0
      loader := { s.loader with
        inReset := false, reading := true, strap := straps, configFault := decide (straps = 0) } })
  else .next s

/-- Steps 3 and 4 of start-up: the image is checked, and the clamped fields of a verified image handed over (R168 to
R170). -/
def loadImage (image : BitVec 416) (s : State) : State :=
  if imageVerifies image then
    { s with
      loader := { s.loader with reading := false, image := image, verified := true, settings := imageSettings image }
      view := { s.view with entries := s.view.entries.mapLines fun k e => { e with wired := imageWires image k } }
      clock := { s.clock with warmTime := imageWarmTime image } }
  else { s with loader := { s.loader with reading := false, image := image, configFault := true } }

/-- Steps 5 and 6: the join period starts, and the fresh-start STATE is owed unless the strap address is 0 (R95, R170,
R175). -/
def joinBus (s : State) : State :=
  { s with
    rbc := { s.rbc with join := .running }
    ind := if s.address = 0 then s.ind else { s.ind with stateOwed := true, freshMark := true } }

/-- The test timer as it is loaded: absent for an interval of 0, else the interval in seconds (R13). -/
def testInterval (hours : Nat) : Option Nat := if hours = 0 then none else some (hours * 3600)

/-- Step 7: the station-start event, then the sampling of zones with the test timer; not in CONFIG_FAULT (R8, R13, R14,
R170). -/
def beginSampling (s : State) : State :=
  if s.loader.configFault then s
  else
    let raised := s.raise stationStart
    { raised with zone := { raised.zone with
        sampling := true, testTimer := testInterval s.loader.settings.testHours } }

/-- CONFIG_READ_DONE: steps 3 to 7 of start-up follow at once (R170). -/
def execConfigReadDone (image : BitVec 416) (s : State) : Outcome State Fault Refusal :=
  if s.loader.reading then .next (s.settle (beginSampling (joinBus (loadImage image s)))) else .next s

end Sys2Proof.Machine
end

