-- ==== Sys2Proof/Machine/Time.lean ====
section
/-! DEFINITION. Station time and the stored times that pass: STATION_TIME_TICK, NOT_BEFORE_PASSES,
NEXT_OFFER_TIME_PASSES, CARRY_TIMEOUT (R27, R40, R47, R146, R153). -/

namespace Sys2Proof.Machine

open Host

/-- U of every wired line at a tick (R47). -/
def drainedEntries (v : Four Entry) : Four Entry :=
  v.mapLines fun _ e =>
    if e.wired then { e with occupancy := occupancyAfter (decide (e.derived = .office)) e.occupancy } else e

/-- STATION_TIME_TICK: station time rises by one, U is updated from the derived states at the tick, the test timer counts
down, and the lead is taken afresh (R13, R40, R47, R100). Station time stands still in reset (R40). -/
def execStationTimeTick (s : State) : Outcome State Fault Refusal :=
  if s.loader.inReset then .next s
  else
    .next (s.settleChoice { s with
      time := s.time + 1
      view := { s.view with entries := drainedEntries s.view.entries }
      zone := { s.zone with testTimer := s.zone.testTimer.map fun t => t - 1 } })

/-- NOT_BEFORE_PASSES: some record's not-before time is now; the lead is taken afresh (R27, R40, R100). -/
def execNotBeforePasses (s : State) : Outcome State Fault Refusal :=
  if s.queue.records.any fun r => decide (r.notBefore = s.time) then .next (s.settleChoice s) else .next s

/-- An own record's next-offer time is now. -/
def offersNow (s : State) (r : Record) : Bool :=
  match r.kind with
  | .own o => decide (o.nextOffer = s.time)
  | .carried _ => false

/-- NEXT_OFFER_TIME_PASSES: some record's next-offer time is now; whether an offer can be made is taken afresh (R40,
R146). -/
def execNextOfferTimePasses (s : State) : Outcome State Fault Refusal :=
  if s.queue.records.any (offersNow s) then .next (s.settle s) else .next s

/-- The record has been HANDED for 15 minutes (R153). -/
def handedTooLong (now : Nat) (r : Record) : Bool :=
  match r.state with
  | .handed _ since => decide (since + 900 ≤ now)
  | _ => false

/-- CARRY_TIMEOUT: a record HANDED for 15 minutes returns to WAITING, with the join of R25 (R153). -/
def execCarryTimeout (seq : Byte) (s : State) : Outcome State Fault Refusal :=
  match s.queue.findSeq seq with
  | some r =>
    if handedTooLong s.time r then .next (s.settle { s with queue := s.queue.giveBack s.time r.order }) else .next s
  | none => .next s

end Sys2Proof.Machine
end

