-- ==== Sys2Proof/Machine/Zones.lean ====
section
/-! DEFINITION. Zone supervision and the periodic test: ZONE_SAMPLE_PASS, TEST_TIMER_EXPIRY (Chapter 1). -/

namespace Sys2Proof.Machine

open Host

/-- The run count after a sample: up by one to at most the debounce count, or 1 on a new band (R3). -/
def Zone.runAfter (debounce : Nat) (b : Band) (z : Zone) : Nat := if b = z.band then min debounce (z.run + 1) else 1

/-- The debounced state set, and the two conditions recomputed from it (R3, R4). -/
def Zone.setDebounced (b : Band) (z : Zone) : Zone :=
  { z with debounced := b, alarm := decide (b = .active), trouble := decide (b = .opened ∨ b = .short) }

/-- One sample of a zone in use (R3). -/
def Zone.sample (debounce : Nat) (b : Band) (z : Zone) : Zone :=
  let counted : Zone := { z with band := b, run := z.runAfter debounce b }
  if z.runAfter debounce b = debounce ∧ b ≠ z.debounced then counted.setDebounced b else counted

/-- The events of one zone's change, the clearing before the onset (R5, R6, Table 1-4). -/
def zoneEvents (n : ZoneId) (settings : ZoneSettings) (old new : Zone) : List Event :=
  (if old.alarm && !new.alarm && settings.restorals then [⟨n.number, .alarm, .cleared, 5⟩] else [])
    ++ (if old.trouble && !new.trouble && settings.restorals then [⟨n.number, .trouble, .cleared, 5⟩] else [])
    ++ (if !old.alarm && new.alarm then [⟨n.number, .alarm, .new, settings.cls⟩] else [])
    ++ (if !old.trouble && new.trouble then [⟨n.number, .trouble, .new, 4⟩] else [])

/-- A zone after the pass: a zone not in use is not sampled (R1, R2). -/
def zoneAfter (loops : Eight LoopMeasure) (s : State) (n : ZoneId) : Zone :=
  if (s.loader.settings.zones.get n).inUse then
    (s.zone.zones.get n).sample (s.loader.settings.zones.get n).debounce (loopBand (loops.get n))
  else s.zone.zones.get n

/-- The events of a pass in zone order (R7). -/
def passEvents (loops : Eight LoopMeasure) (s : State) : List Event :=
  (ZoneId.all.map fun n =>
    zoneEvents n (s.loader.settings.zones.get n) (s.zone.zones.get n) (zoneAfter loops s n)).flatten

/-- ZONE_SAMPLE_PASS: all in-use zones sampled together, then the events handed over in zone order (R2 to R7). Nothing
happens before sampling has begun (R8). -/
def execZoneSamplePass (loops : Eight LoopMeasure) (s : State) : Outcome State Fault Refusal :=
  if s.zone.sampling then
    let sampled : State := { s with zone := { s.zone with zones := Eight.ofZone (zoneAfter loops s) } }
    if (passEvents loops s).isEmpty then .next sampled
    else .next (s.settle (sampled.raiseAll (passEvents loops s)))
  else .next s

/-- TEST_TIMER_EXPIRY: the timer has counted down to 0: the periodic test is raised and the timer reloaded (R13). -/
def execTestTimerExpiry (s : State) : Outcome State Fault Refusal :=
  if s.zone.testTimer = some 0 then
    .next (s.settle (({ s with
      zone := { s.zone with testTimer := testInterval s.loader.settings.testHours } } : State).raise periodicTest))
  else .next s

end Sys2Proof.Machine
end

