-- ==== Sys2Proof/Machine/Dispatch.lean ====
section
/-! DEFINITION. The dispatch: one arm per command, each one call of its meaning. -/

namespace Sys2Proof.Machine

open Host

/-- The effect of a command on everything but the queue of waiting commands. -/
def exec (i : Instr) (s : State) : Host.Outcome State Fault Refusal :=
  match i with
  | .reset => Sys2Proof.Machine.execReset s
  | .releaseOfReset straps => Sys2Proof.Machine.execReleaseOfReset straps s
  | .configReadDone image => Sys2Proof.Machine.execConfigReadDone image s
  | .zoneSamplePass loops => Sys2Proof.Machine.execZoneSamplePass loops s
  | .testTimerExpiry => Sys2Proof.Machine.execTestTimerExpiry s
  | .lineSamplePass volts => Sys2Proof.Machine.execLineSamplePass volts s
  | .deadTimerExpiry k => Sys2Proof.Machine.execDeadTimerExpiry k s
  | .allDeadTimerExpiry => Sys2Proof.Machine.execAllDeadTimerExpiry s
  | .peerIdleLimit k => Sys2Proof.Machine.execPeerIdleLimit k s
  | .stationTimeTick => Sys2Proof.Machine.execStationTimeTick s
  | .notBeforePasses => Sys2Proof.Machine.execNotBeforePasses s
  | .nextOfferTimePasses => Sys2Proof.Machine.execNextOfferTimePasses s
  | .carryTimeout seq => Sys2Proof.Machine.execCarryTimeout seq s
  | .busTroubleTimerExpiry => Sys2Proof.Machine.execBusTroubleTimerExpiry s
  | .joinPeriodEnd => Sys2Proof.Machine.execJoinPeriodEnd s
  | .busIdle read => Sys2Proof.Machine.execBusIdle s read
  | .frameStart start => Sys2Proof.Machine.execFrameStart s start
  | .receiveError kind read echo => Sys2Proof.Machine.execReceiveError kind s read echo
  | .transmitError kind read echo => Sys2Proof.Machine.execTransmitError kind s read echo
  | .passiveSuspendEnd => Sys2Proof.Machine.execPassiveSuspendEnd s
  | .stuckEntry => Sys2Proof.Machine.execStuckEntry s
  | .stuckExit => Sys2Proof.Machine.execStuckExit s
  | .busOffRecovery read => Sys2Proof.Machine.execBusOffRecovery s read
  | .claimReceived value payload acked => Sys2Proof.Machine.execClaimReceived value payload s acked
  | .objectReceived value payload acked => Sys2Proof.Machine.execObjectReceived value payload s acked
  | .releaseReceived value payload acked => Sys2Proof.Machine.execReleaseReceived value payload s acked
  | .offerReceived value payload acked => Sys2Proof.Machine.execOfferReceived value payload s acked
  | .acceptReceived value payload acked => Sys2Proof.Machine.execAcceptReceived value payload s acked
  | .carryReceived value payload acked => Sys2Proof.Machine.execCarryReceived value payload s acked
  | .outcomeReceived value payload acked => Sys2Proof.Machine.execOutcomeReceived value payload s acked
  | .stateReceived value payload acked => Sys2Proof.Machine.execStateReceived value payload s acked
  | .claimSent => Sys2Proof.Machine.execClaimSent s
  | .objectSent => Sys2Proof.Machine.execObjectSent s
  | .releaseSent => Sys2Proof.Machine.execReleaseSent s
  | .offerSent => Sys2Proof.Machine.execOfferSent s
  | .acceptSent => Sys2Proof.Machine.execAcceptSent s
  | .carrySent => Sys2Proof.Machine.execCarrySent s
  | .outcomeSent => Sys2Proof.Machine.execOutcomeSent s
  | .stateSent => Sys2Proof.Machine.execStateSent s
  | .pendingGuardPasses k => Sys2Proof.Machine.execPendingGuardPasses k s
  | .ownGuardPasses => Sys2Proof.Machine.execOwnGuardPasses s
  | .yieldLimitExpiry k => Sys2Proof.Machine.execYieldLimitExpiry k s
  | .yieldWaitExpiry => Sys2Proof.Machine.execYieldWaitExpiry s
  | .offerWindowExpiry => Sys2Proof.Machine.execOfferWindowExpiry s
  | .acceptPendingTimeout => Sys2Proof.Machine.execAcceptPendingTimeout s
  | .stateSpacingExpiry => Sys2Proof.Machine.execStateSpacingExpiry s
  | .warmTimeReached hertz => Sys2Proof.Machine.execWarmTimeReached hertz s
  | .oscillatorSteady => Sys2Proof.Machine.execOscillatorSteady s
  | .fastClockFail => Sys2Proof.Machine.execFastClockFail s
  | .fastClockRelease => Sys2Proof.Machine.execFastClockRelease s
  | .bargeClearingEnd => Sys2Proof.Machine.execBargeClearingEnd s
  | .dialToneJudged => Sys2Proof.Machine.execDialToneJudged s
  | .dialToneWaitExpiry => Sys2Proof.Machine.execDialToneWaitExpiry s
  | .digitEnd => Sys2Proof.Machine.execDigitEnd s
  | .toneClassChange audio ms silent => Sys2Proof.Machine.execToneClassChange audio ms s silent
  | .toneGapLimit ms => Sys2Proof.Machine.execToneGapLimit ms s
  | .busyPeriodLimit => Sys2Proof.Machine.execBusyPeriodLimit s
  | .busyCadence => Sys2Proof.Machine.execBusyCadence s
  | .handshakeJudged => Sys2Proof.Machine.execHandshakeJudged s
  | .handshakeWaitExpiry => Sys2Proof.Machine.execHandshakeWaitExpiry s
  | .settleEnd => Sys2Proof.Machine.execSettleEnd s
  | .sendEnd => Sys2Proof.Machine.execSendEnd s
  | .kissoffJudged => Sys2Proof.Machine.execKissoffJudged s
  | .kissoffWaitExpiry => Sys2Proof.Machine.execKissoffWaitExpiry s
  | .betweenMessagesEnd => Sys2Proof.Machine.execBetweenMessagesEnd s
  | .lineLostTimerExpiry => Sys2Proof.Machine.execLineLostTimerExpiry s
  | .hangUpHoldEnd => Sys2Proof.Machine.execHangUpHoldEnd s
  | .startOfFrameReceived => Sys2Proof.Machine.execStartOfFrameReceived s
  | .arbitrationLost read => Sys2Proof.Machine.execArbitrationLost s read

end Sys2Proof.Machine
end

