-- ==== Sys2Proof/Safety.lean ====
section
/-! DEFINITION. What a sound station is, in the terms the claims use: the bounds of the queue and of the bus controller, the
law of HOOK and SEIZE, the quiet of CONFIG_FAULT; and the frames of the shared operations, named once. -/

namespace Sys2Proof.Machine

/-! ### Invariants -/

/-- The bounds of R17: never more than 24 records, never more than 8 of them carried. -/
def AlertQueue.Bounded (q : AlertQueue) : Prop := q.count ≤ 24 ∧ q.carriedCount ≤ 8

/-- Admission orders tell the records apart and are below the next one given (R20). -/
def AlertQueue.Ordered (q : AlertQueue) : Prop :=
  (q.records.map Record.order).Nodup ∧ ∀ r ∈ q.records, r.order < q.admissions

/-- The sequence number an own record holds. -/
def Record.ownSeq (r : Record) : Option Byte :=
  match r.kind with
  | .own o => some o.seq
  | .carried _ => none

/-- No two own records hold one sequence number (R21). -/
def AlertQueue.SeqDistinct (q : AlertQueue) : Prop := (q.records.filterMap Record.ownSeq).Nodup

/-- A sound Alert Queue. -/
structure AlertQueue.Sound (q : AlertQueue) : Prop where
  bounded : q.Bounded
  ordered : q.Ordered
  seqs : q.SeqDistinct

/-- The counters within 0 to 255, at most three frames in slots, one run count at 0, and no more recessive bits counted
for recovery than have been read in a row (R75, R86, R87, R89, section 5.7). -/
structure Rbc.Sound (b : Rbc) : Prop where
  tx : b.txErrors ≤ 255
  rx : b.rxErrors ≤ 255
  slots : b.slots.length ≤ 3
  runs : b.recessiveRun = 0 ∨ b.dominantRun = 0
  recovery : b.recovery ≤ b.recessiveRun

/-- The call states in which the Call Engine may drive a line: SEIZE to KISSOFF (R119). -/
def CallState.onLine : CallState → Bool
  | .seize => true
  | .dial => true
  | .handshake => true
  | .send => true
  | .kissoff => true
  | .idle => false
  | .claim => false
  | .hangup => false

/-- The law of R119 at the terminals: at most one HOOK is closed, and a closed one is on a line whose entry is OWN while
the fast clock is ACTIVE. -/
structure State.HookLaw (s : State) : Prop where
  one : ∀ j k, s.call.hook.get j = true → s.call.hook.get k = true → j = k
  own : ∀ k, s.call.hook.get k = true → (s.entry k).derived = .own
  clock : ∀ k, s.call.hook.get k = true → s.clock.state = .active

/-- What keeps that law from step to step: the driven line is the call's, its entry is this station's own, the engine is
on the line and the clock is ACTIVE from fast-ready until the engine has been IDLE. -/
structure State.LineSound (s : State) : Prop where
  /-- IDLE exactly where the call has no line (Table 7-3) -/
  idle : s.call.state = .idle ↔ s.call.line = none
  /-- a report of fast-ready is not kept in IDLE (R125) -/
  idleReady : s.call.state = .idle → s.call.fastReady = false
  /-- the own flag is set exactly on the call's line, which is wired (Table 7-3 Note 2) -/
  own : ∀ k, (s.entry k).own = true ↔ s.call.line = some k
  wired : ∀ k, s.call.line = some k → (s.entry k).wired = true
  /-- only the call's line is driven, from SEIZE to KISSOFF -/
  hook : ∀ k, s.call.hook.get k = true → s.call.line = some k ∧ s.call.state.onLine = true
  seize : ∀ k, s.call.seize.get k = true → s.call.line = some k ∧ s.call.state.onLine = true
  /-- fast-ready, once held, and every state on the line mean an ACTIVE clock -/
  ready : s.call.fastReady = true → s.clock.state = .active
  onLine : s.call.state.onLine = true → s.clock.state = .active
  /-- the release timer runs in IDLE only (R164) -/
  release : s.clock.releaseTimer = true → s.call.state = .idle
  /-- before the configuration is read the engine is IDLE and no line is wired (R168, R170) -/
  unread : s.loader.inReset = true ∨ s.loader.reading = true →
    s.call.state = .idle ∧ ∀ k, (s.entry k).wired = false
  /-- the configuration read begins at the release of reset (R165, R167) -/
  phases : ¬ (s.loader.inReset = true ∧ s.loader.reading = true)

/-- A zone that is not in use is as reset left it, and so is every zone before sampling has begun, which it has not while
the station is in reset or reads its configuration (R1, R8, R168). -/
structure State.ZonesSound (s : State) : Prop where
  phases : ¬ (s.loader.inReset = true ∧ s.loader.reading = true)
  sampling : s.zone.sampling = true → s.loader.inReset = false ∧ s.loader.reading = false
  unsampled : s.zone.sampling = false → ∀ n, s.zone.zones.get n = Zone.reset
  unused : ∀ n, (s.loader.settings.zones.get n).inUse = false → s.zone.zones.get n = Zone.reset

/-- The quiet of CONFIG_FAULT after the release of reset (R15, R171). -/
structure State.FaultQuiet (s : State) : Prop where
  fault : s.loader.configFault = true
  released : s.loader.inReset = false
  empty : s.queue.records = []
  noCall : s.call = CallEngine.idle
  quietClock : s.clock.state = .quiet
  noOffer : s.carry.offer = none
  noAccept : s.carry.accept = none

/-- Until the configuration read ends, nothing has moved: in reset the station is as reset left it, and while it reads
only the loader, station time and, at address 0, the flag of the changed report are otherwise (R165 to R168, R171, R175).
-/
structure State.Unstarted (s : State) : Prop where
  inReset : s.loader.inReset = true → s = { State.reset with free := s.free, pending := s.pending }
  reading : s.loader.inReset = false → s.loader.reading = true → s = { State.reset with
    loader := { Loader.reset with
      inReset := false, reading := true, strap := s.loader.strap, configFault := decide (s.loader.strap = 0) }
    time := s.time
    ind := { Indication.reset with stateOwed := decide (s.loader.strap = 0) }
    free := s.free
    pending := s.pending }

/-- The Indication Unit keeps its STATE-owed flag by its last contents; a STATE that may be owed is, and none is that
may not (R175, R176). -/
structure State.IndSound (s : State) : Prop where
  flag : ∀ l, s.ind.last = some l → (s.ind.stateOwed = true ↔ s.reported ≠ l)
  owed : s.ind.stateOwed = true → s.ind.spacing = false → s.address ≠ 0 → s.rbc.owes .state = true
  once : s.rbc.owed.count .state ≤ if s.ind.stateOwed then 1 else 0

/-- No slot is empty while a marker waits that may be loaded (R92). -/
def State.SlotsFilled (s : State) : Prop := 3 ≤ s.rbc.slots.length ∨ s.loadable = []

/-! ### Frames of the shared operations -/

/-- The own fields of an entry aside (R66). -/
def Entry.others (e : Entry) : Entry := e.clearOwn

/-- A record but for its state (Table 2-5). -/
def Record.still (r : Record) : Record := { r with state := .waiting }

/-- An outcome entry but for whether its frame is in a slot. -/
def OutcomeEntry.still (e : OutcomeEntry) : OutcomeEntry := { e with inSlot := false }

/-- The markers that no settlement withdraws: all but an ACCEPT (R155) and a STATE (R175). -/
def Marker.lasting : Marker → Bool
  | .accept _ _ _ => false
  | .state => false
  | .claim _ _ _ => true
  | .object _ => true
  | .release _ _ => true
  | .offer _ _ => true
  | .carry _ _ => true
  | .outcome _ _ _ => true

/-- How many frames of a marker the station has to send: owed, in a slot, or for an OUTCOME in the list of R157. -/
def State.toSend (m : Marker) (s : State) : Nat :=
  s.rbc.owed.count m + (s.rbc.slots.map Slot.marker).count m +
    match m with
    | .outcome origin seq result => s.carry.outcomes.count ⟨origin, seq, result, false⟩
    | _ => 0

/-- The frames that the end of a step may owe: the CLAIM of a claim placed there, the OFFER of an offer made there, a STATE
where none is owed (R101, R147, R175). -/
def State.owedAtEnd (made left : State) (m : Marker) : Nat :=
  match m with
  | .claim k key barge =>
    if made.call.state = .idle ∧ left.call.state ≠ .idle ∧ left.call.line = some k ∧ (left.entry k).ownKey = some key ∧
      (left.entry k).barge = barge then 1 else 0
  | .offer seq key => if made.carry.offer = none ∧ left.carry.offer = some ⟨seq, key, .owed⟩ then 1 else 0
  | .state => if made.toSend .state = 0 then 1 else 0
  | .object _ => 0
  | .release _ _ => 0
  | .accept _ _ _ => 0
  | .carry _ _ => 0
  | .outcome _ _ _ => 0

/-- What the end of a step leaves as the command's effect made it. Only the choice of a call, the making of an offer, the
end of an accept-pending marker, and the loading of frames follow (log entry 20). -/
structure State.Settled (made left : State) : Prop where
  loader : left.loader = made.loader
  time : left.time = made.time
  zone : left.zone = made.zone
  tone : left.tone = made.tone
  pending : left.pending = made.pending
  allDead : left.view.allDead = made.view.allDead
  /-- the entries, but for the own fields that a placement writes -/
  entries : ∀ k, (left.entry k).others = (made.entry k).others
  /-- the bus controller, but for what it has to send -/
  wire : { left.rbc with slots := made.rbc.slots, owed := made.rbc.owed } = made.rbc
  /-- the queue, but for its records' states -/
  queue : { left.queue with records := made.queue.records } = made.queue
  records : left.queue.records.map Record.still = made.queue.records.map Record.still
  /-- what is owed stays owed, in a slot or not -/
  owed : ∀ m, m.lasting = true → made.rbc.owes m = true → left.rbc.owes m = true
  /-- a call in progress takes no record -/
  inCall : made.call.state ≠ .idle → ∀ r ∈ left.queue.records, r.state = .inCall → r ∈ made.queue.records
  /-- a call in progress, with its claim and its clock -/
  call : made.call.state ≠ .idle → left.call = made.call ∧ left.clock = made.clock ∧ left.view = made.view
  /-- the fast-clock-fail latch and the warm time -/
  latch : left.clock.latch = made.clock.latch
  warmTime : left.clock.warmTime = made.clock.warmTime
  /-- the outcome list, but for which of its frames are in slots -/
  outcomes : left.carry.outcomes.map OutcomeEntry.still = made.carry.outcomes.map OutcomeEntry.still
  clash : left.ind.addressClash = made.ind.addressClash
  freshMark : left.ind.freshMark = made.ind.freshMark
  spacing : left.ind.spacing = made.ind.spacing
  /-- nothing else is owed than was, but what the end of a step may owe -/
  noMore : ∀ m, left.toSend m ≤ made.toSend m + State.owedAtEnd made left m
  /-- an offer outstanding stays as it is -/
  offer : made.carry.offer ≠ none → left.carry.offer = made.carry.offer

/-- What the loading of frames alone leaves: as `Settled`, and no call, offer or acceptance either. -/
structure State.FramesOnly (made left : State) : Prop where
  settled : State.Settled made left
  sameCall : left.call = made.call
  sameClock : left.clock = made.clock
  sameView : left.view = made.view
  sameQueue : left.queue = made.queue
  sameOffer : left.carry.offer = made.carry.offer
  sameAccept : left.carry.accept = made.carry.accept
  sameFree : left.free = made.free

/-- The bits of a frame after its start-of-frame bit up to its ACK slot, as a sender with these CRC bits sends them: the
arbitration field and the payload, of the length that the type fixes, and the CRC, with the bits inserted (R76, R77, Table
5-1). -/
def WholeRegion (fields crcBits sent : List Bool) : Prop :=
  (∃ type : FrameType, fields.take 3 = bitsOf 3 type.code ∧ fields.length = 16 + 8 * type.payloadLength) ∧
    crcBits.length = 8 ∧ sent = (stuff (false :: fields ++ crcBits)).tail

/-- A payload as one number, byte 0 highest (Table 11-2). -/
def packPayload (w : Nat) (payload : List Byte) : BitVec w :=
  BitVec.ofNat w (payload.foldl (fun n b => n * 256 + b.toNat) 0)

/-- The two conditions of a zone follow its debounced state (R4). -/
def Zone.Consistent (z : Zone) : Prop :=
  (z.alarm = true ↔ z.debounced = .active) ∧ (z.trouble = true ↔ z.debounced = .opened ∨ z.debounced = .short)

/-- A frame of a value is being received and is no address clash, so that its fields are looked at (R95, R96). -/
structure State.Hears (value : BitVec 13) (s : State) : Prop where
  receiving : s.rbc.receiving = true
  notStuck : s.rbc.stuck = false
  noClash : s.address = 0 ∨ senderOf value ≠ s.address

/-- The station after a frame received without error, before any block has it: REC lowered but in BUS_OFF, the run counts
as the frame's end leaves them (R75, R76, R87, R89). -/
def State.heard (f : Frame) (acked : Bool) (s : State) : State := { s with rbc := s.rbc.endReception f acked }

/-- The controller after the third ACK error of an own frame: the bits read and those of an active station's abort pattern
counted, TEC as an ACK error leaves it, a passive station's suspend begun, the slot empty (R75, R82, R85, R86, R91). -/
def Rbc.afterUnheard (read : List Bool) (echo : BitVec 8) (b : Rbc) : Rbc :=
  (((b.readFailedAttempt read echo).countFailedAttempt .ack).suspendIfPassive).dropSending

/-- The controller after an own frame that ended acknowledged: TEC lowered, its slot empty, a passive station's suspend
begun (R85, R86, R91). -/
def Rbc.afterSent (b : Rbc) : Rbc := ((b.readRecessiveAfterDominant 9).lowerTx.suspendIfPassive).dropSending

/-- An own frame, in transmission in slot x, ends on the bus with a command: acknowledged, or, which its owner takes alike,
at its third ACK error; and the controller it leaves (R82). -/
def State.Ends (s : State) (x : Slot) (type : FrameType) (sent c : Instr) (b : Rbc) : Prop :=
  (c = sent ∧ x.frame.type = type ∧ b = s.rbc.afterSent) ∨
    ∃ read echo, c = .transmitError .ack read echo ∧ s.rbc.stuck = false ∧ 2 ≤ x.unacked ∧
      s.rbc.losesAttempt .ack x.frame read = true ∧ b = s.rbc.afterUnheard read echo

/-- A claim placed on line k from a tier for record r by a station whose Call Engine was IDLE (R101, R116, R125): the call
with its line and lead, the own fields, the CLAIM owed outside solo mode, the record IN_CALL, the fast clock requested. -/
structure State.Placed (r : Record) (k : LineId) (tier : Tier) (before after : State) : Prop where
  state : after.call.state = if before.solo = true ∧ before.clock.state = .active then .seize else .claim
  line : after.call.line = some k
  lead : after.call.lead = some r.order
  inHand : after.call.inHand = some r.order
  counts : after.call.batch = 0 ∧ after.call.sends = 0
  own : (after.entry k).own = true
  key : (after.entry k).ownKey = some (composeKey r.cls (r.grade before.time) r.originTerm before.address)
  barge : (after.entry k).barge = decide (tier = .office)
  guard : (after.entry k).ownGuard = .absent
  guardDone : (after.entry k).ownGuardDone = before.solo
  claim : before.solo = false →
    after.rbc.owes (.claim k (r.key before.time before.address) (decide (tier = .office))) = true
  record : { r with state := .inCall } ∈ after.queue.records
  clock : after.clock.state =
    if before.clock.state = .quiet ∧ before.clock.latch = false then .warming else before.clock.state
  release : after.clock.releaseTimer = false

/-- A sequence number that no own record of a list holds, and the first such from a counter upward (R21). -/
def FirstFree (records : List Record) (counter seq : Byte) : Prop :=
  (∀ r ∈ records, r.hasSeq seq = false) ∧
  ∃ n : Nat, seq = counter + BitVec.ofNat 8 n ∧
    ∀ j, j < n → ∃ r ∈ records, r.hasSeq (counter + BitVec.ofNat 8 j) = true

/-- No record of the queue is IN_CALL (R24). -/
def AlertQueue.NoneInCall (q : AlertQueue) : Prop := ∀ r ∈ q.records, r.state ≠ .inCall

/-- A claim in CLAIM abandoned on line `old` and placed, in the same step and for the same lead r, on line k from a
tier: the own fields of `old` are clear, the key is composed afresh, the engine's clock request stands, no RELEASE is
owed for `old` that was not (R102), and in solo mode the claim is ready at once, with no CLAIM (R101, R116). `solo` is
the mode in which the choice is made. -/
structure State.Rechosen (old k : LineId) (tier : Tier) (r : Record) (solo : Bool) (before after : State) : Prop where
  state : after.call.state = if solo = true ∧ before.call.fastReady = true then .seize else .claim
  line : after.call.line = some k
  lead : after.call.lead = before.call.lead
  inHand : after.call.inHand = before.call.inHand
  guardReported : after.call.guardDone = solo
  fastReady : after.call.fastReady = before.call.fastReady
  cleared : old ≠ k → (after.entry old).own = false
  own : (after.entry k).own = true
  key : (after.entry k).ownKey = some (composeKey r.cls (r.grade before.time) r.originTerm before.address)
  barge : (after.entry k).barge = decide (tier = .office)
  guard : (after.entry k).ownGuard = .absent
  guardDone : (after.entry k).ownGuardDone = solo
  claim : solo = false →
    after.rbc.owes (.claim k (r.key before.time before.address) (decide (tier = .office))) = true
  noClaim : solo = true ∨ old ≠ k → before.rbc.sendingSlot = none →
    ∀ key barge, after.rbc.owes (.claim old key barge) = false
  release : ∀ reason, after.rbc.owes (.release old reason) = true → before.rbc.owes (.release old reason) = true
  record : r.state = .inCall → r ∈ before.queue.records → r ∈ after.queue.records
  clock : after.clock = before.clock

/-- A claim in CLAIM given up with nothing counted: the engine IDLE, the line's own fields clear, no record IN_CALL, and
every record but for its state as it was (R102). -/
structure State.GivenUp (old : LineId) (before after : State) : Prop where
  call : after.call = CallEngine.idle
  own : (after.entry old).own = false
  noneInCall : after.queue.NoneInCall
  records : after.queue.records.map Record.still = before.queue.records.map Record.still
  failures : (after.entry old).failures = (before.entry old).failures
  release : ∀ reason, after.rbc.owes (.release old reason) = true → before.rbc.owes (.release old reason) = true

/-- The call engine at HANGUP entry with an outcome: every output released, its timers removed, the hold running (R139
parts 1 and 5). -/
def CallEngine.hungUp (o : CallOutcome) (c : CallEngine) : CallEngine :=
  { c with
    state := .hangup, outcome := some o, timer := some .hold, lineLost := false, digits := [], block := []
    hook := Four.const false, seize := Four.const false }

/-- The markers that no hang-up on line k owes: all but its RELEASE, and the OFFER, the OUTCOME and the STATE that the end of
the step or the accounting may bring. -/
def Marker.beyondHangUp (k : LineId) : Marker → Bool
  | .release j _ => decide (j ≠ k)
  | .claim _ _ _ => true
  | .object _ => true
  | .accept _ _ _ => true
  | .carry _ _ => true
  | .offer _ _ => false
  | .outcome _ _ _ => false
  | .state => false

/-- What the trouble flag of an entry is recomputed to: wired, and F at the threshold or the dead flag set (R70). -/
def Entry.Troubled (threshold : Nat) (e : Entry) : Prop := e.wired = true ∧ (threshold ≤ e.failures ∨ e.dead = true)

/-- Every trouble flag is what F and the dead flag make it (R70). -/
def State.FlagsRight (s : State) : Prop :=
  ∀ j, (s.entry j).trouble = true ↔ (s.entry j).Troubled s.loader.settings.lineThreshold

/-- No record IN_CALL has another WAITING or IN_CALL record of its report to be joined with as the call ends (R25). -/
def AlertQueue.NoJoinDue (q : AlertQueue) : Prop :=
  ∀ x ∈ q.records, x.state = .inCall → 3 ≤ x.cls → ∀ w ∈ q.records, w ≠ x → w.state = .waiting ∨ w.state = .inCall →
    x.sameReport w = false

/-- A queue is another but for its records' states, which the choice of a call and the making of an offer change. -/
structure AlertQueue.SameButStates (q p : AlertQueue) : Prop where
  rest : { q with records := p.records } = p
  records : q.records.map Record.still = p.records.map Record.still

/-- The queue as a call ends with an outcome, where no join is due: every record IN_CALL is WAITING; after a line-caused
failure the lead is held back 5 s; attempts, number index and not-before are else as they were (R51, R139, R141). -/
def State.queueAtEnd (o : CallOutcome) (s : State) : AlertQueue :=
  { s.queue with records := s.queue.records.map fun x => { x with
      state := if x.state = .inCall then .waiting else x.state
      notBefore := if o.kind = .lineCaused ∧ s.call.lead = some x.order then s.time + 5 else x.notBefore } }

/-- A station that has hung up on line k with an outcome: HANGUP with every output released, the detector's class NONE, no
record IN_CALL, the RELEASE owed outside solo mode and none in it, F and the trouble flags, the line's NEW event where it
comes into trouble, the records as the outcome leaves them, and nothing else of the station touched (R9, R68, R70, R113,
R139 to R142). What a centre-caused failure counts against its record is left to its own statement. -/
structure State.HungUp (k : LineId) (o : CallOutcome) (before after : State) : Prop where
  call : after.call = before.call.hungUp o
  tone : after.tone = { before.tone with cls := .none }
  noneInCall : after.queue.NoneInCall
  released : before.solo = false → after.rbc.owes (.release k o.reason) = true
  /-- in solo mode no RELEASE is owed that was not (R113) -/
  soloRelease : before.solo = true → ∀ reason, after.rbc.owes (.release k reason) = true →
    before.rbc.owes (.release k reason) = true
  failures : (after.entry k).failures =
    if o.kind = .lineCaused then min 7 ((before.entry k).failures + 1) else (before.entry k).failures
  /-- every entry else as it was, but for its trouble flag -/
  entries : ∀ j, { after.entry j with failures := (before.entry j).failures, trouble := (before.entry j).trouble }
    = before.entry j
  otherLines : ∀ j, j ≠ k → (after.entry j).failures = (before.entry j).failures
  trouble : after.FlagsRight
  /-- where no flag changes, no event: the records are as the outcome leaves them -/
  quiet : before.queue.Sound → before.queue.NoJoinDue → o.kind ≠ .centreCaused →
    (∀ j, (after.entry j).trouble = (before.entry j).trouble) → after.queue.SameButStates (before.queueAtEnd o)
  /-- where the line comes into trouble and no other flag changes, its NEW event is admitted to that queue (R9) -/
  told : before.queue.Sound → before.queue.NoJoinDue → o.kind ≠ .centreCaused → before.loader.configFault = false →
    (before.entry k).trouble = false → (after.entry k).trouble = true →
    (∀ j, j ≠ k → (after.entry j).trouble = (before.entry j).trouble) →
    after.queue.SameButStates ((before.queueAtEnd o).admitEvent before.time ⟨90 + k.index, .line, .new, 4⟩)
  /-- no OUTCOME but that of a carried record at M (R37) -/
  outcomes : o.kind ≠ .centreCaused →
    after.carry.outcomes.map OutcomeEntry.still = before.carry.outcomes.map OutcomeEntry.still
  allDead : after.view.allDead = before.view.allDead
  clock : after.clock = before.clock
  loader : after.loader = before.loader
  time : after.time = before.time
  zone : after.zone = before.zone
  pending : after.pending = before.pending
  wire : { after.rbc with slots := before.rbc.slots, owed := before.rbc.owed } = before.rbc
  clash : after.ind.addressClash = before.ind.addressClash
  freshMark : after.ind.freshMark = before.ind.freshMark
  spacing : after.ind.spacing = before.ind.spacing
  /-- no frame of another kind or line is newly owed -/
  noMore : ∀ m, m.beyondHangUp k = true → after.toSend m ≤ before.toSend m

end Sys2Proof.Machine
end

