-- ==== Sys2Proof/Certificates/Slice0/Obligations.lean ====
section
/-! DEFINITION. The statements for the provers. `t` is the state after the command; `State.Settled u t` says that `t` is
`u`, what the command's own effect makes of `s`, but for what closes every step (Safety.lean, log entry 20); so each
statement of that form gives the command's whole effect and its frame. -/

open Sys2Proof Sys2Proof.Machine Host

/-! ### The machine -/

/-- A step takes the command at the front of the queue and runs it on the state with the queue's rest. -/
def Obligations.StepRunsFrontCommand : Prop :=
  ∀ (c : Instr) (rest : List Instr) (s : State),
    step { s with pending := c :: rest } = exec c { s with pending := rest }

/-- Every command answers a next state in every state, since the manual names no step at which the station stops; and no
command touches the queue of the commands that wait. That a command answers next where its own condition does not
hold is the model's reading (log entry 1); that RESET leaves the commands that wait is the model's choice (log entry
21). -/
def Obligations.EveryCommandAnswers : Prop :=
  ∀ (c : Instr) (s : State), ∃ t, exec c s = .next t ∧ t.pending = s.pending

/-! ### Invariants that every step keeps -/

/-- Every step keeps the queue sound: at most 24 records and 8 carried ones, admission orders that tell the records
apart and stay below the counter, and no two own records with one sequence number (R17, R20, R21). -/
def Obligations.QueueSoundKept : Prop :=
  ∀ s t : State, s.queue.Sound → step s = .next t → t.queue.Sound

/-- Every step keeps TEC and REC within 0 to 255, at most three frames in slots, one of the two run counts at 0, and the
recovery count at most the recessive run (R75, R86, R87, R89, section 5.7). -/
def Obligations.BusSoundKept : Prop :=
  ∀ s t : State, s.rbc.Sound → step s = .next t → t.rbc.Sound

/-- Every step keeps what the law of HOOK and SEIZE rests on, with the order of start-up that it rests on in turn (R119,
R124, R164, R165, R167). -/
def Obligations.LineSoundKept : Prop := ∀ s t : State, s.LineSound → step s = .next t → t.LineSound

/-- The three invariants hold of the station in reset (R39, R74, R98, R118, R124). -/
def Obligations.SoundAtReset : Prop :=
  State.reset.queue.Sound ∧ State.reset.rbc.Sound ∧ State.reset.LineSound

/-- The line invariant gives the law of R119: at most one HOOK closed, on a line whose entry is OWN, with the fast clock
ACTIVE; and SEIZE is asserted on the call's line alone, whether a HOOK is closed or not. -/
def Obligations.LineSoundGivesHookLaw : Prop :=
  ∀ s : State, s.LineSound →
    s.HookLaw ∧ (s.call.state = .idle → s.onlineOutput = false) ∧
      (∀ j, s.call.seize.get j = true → s.call.line = some j) ∧
      ∀ j k, s.call.seize.get j = true → s.call.hook.get k = true → j = k

/-- In CONFIG_FAULT nothing but a reset ends the quiet: no record, no call, no fast clock, no offer, no acceptance (R15,
R144, R171). -/
def Obligations.FaultQuietKept : Prop :=
  ∀ (c : Instr) (s t : State), s.FaultQuiet → c ≠ .reset → exec c s = .next t → t.FaultQuiet

/-- Only a reset ends the fast-clock-fail latch, an address clash, CONFIG_FAULT after the release, or a verified
configuration (R163, R171, R172, R174). -/
def Obligations.LatchesHoldUntilReset : Prop :=
  ∀ (c : Instr) (s t : State), c ≠ .reset → exec c s = .next t →
    (s.clock.latch = true → t.clock.latch = true) ∧
    (s.ind.addressClash = true → t.ind.addressClash = true) ∧
    (s.loader.configFault = true → s.loader.inReset = false → t.loader.configFault = true) ∧
    (s.loader.verified = true → t.loader.verified = true)

/-- What changes at a few commands alone. Station time: at its tick, a reset and its release (R40). The straps, the
image and the settings: at reset and start-up (R166, R167, R169). TEC: at the station's own attempts, a reset, and the
recovery that sets it to 0 (R86, R89). F of a line: at a line-caused failure, a dial tone, and a reset (R68, R69). -/
def Obligations.WhatChangesOnlyThere : Prop :=
  ∀ (c : Instr) (s t : State), exec c s = .next t → c ≠ .reset →
    ((∀ a, c ≠ .releaseOfReset a) → c ≠ .stationTimeTick → t.time = s.time) ∧
    ((∀ a, c ≠ .releaseOfReset a) → (∀ i, c ≠ .configReadDone i) → t.loader = s.loader) ∧
    (c ∉ [.claimSent, .objectSent, .releaseSent, .offerSent, .acceptSent, .carrySent, .outcomeSent, .stateSent] →
      (∀ kind read echo, c ≠ .transmitError kind read echo) → (∀ read, c ≠ .busOffRecovery read) →
      t.rbc.txErrors = s.rbc.txErrors) ∧
    (c ∉ [.dialToneJudged, .dialToneWaitExpiry, .lineLostTimerExpiry] → (∀ v, c ≠ .lineSamplePass v) →
      ∀ k, (t.entry k).failures = (s.entry k).failures)

/-! ### Keys, grades, the check digit, the queue order -/

/-- A claim qualifies to pre-empt a key exactly when its class plus 2 is at most the key's class, whatever the wait
grades, origin terms and addresses; so class 0 may displace 2 to 6 and classes 5 and 6 nothing, and two keys of one
class never qualify against each other (R46, Table 3-4). -/
def Obligations.QualifyingIsByClassAlone : Prop :=
  ∀ c w o a c' w' o' a' : Nat, c ≤ 6 → w ≤ 31 → o ≤ 1 → a ≤ 15 → c' ≤ 6 → w' ≤ 31 → o' ≤ 1 → a' ≤ 15 →
    (qualifies (composeKey c w o a) (composeKey c' w' o' a') = true ↔ c + 2 ≤ c') ∧
    (c = c' → qualifies (composeKey c w o a) (composeKey c' w' o' a') = false) ∧
    (5 ≤ c → qualifies (composeKey c w o a) (composeKey c' w' o' a') = false) ∧
    (c = 0 → 2 ≤ c' → qualifies (composeKey c w o a) (composeKey c' w' o' a') = true)

/-- Over fourteen symbols of 0 to 12 the check digit lies in 0 to 12 and makes the sum a multiple of 13; a block with
one symbol changed, among the fourteen or the check itself, fails; so does one with two unequal neighbours of the
fourteen exchanged (R53). -/
def Obligations.CheckDigitCatchesSlips : Prop :=
  ∀ l : List Nat, l.length = 14 → (∀ a ∈ l, a ≤ 12) →
    checkDigit l ≤ 12 ∧ (weightedSum l + checkDigit l) % 13 = 0 ∧
    (∀ i v, i < 14 → v ≤ 12 → l[i]? ≠ some v → (weightedSum (l.set i v) + checkDigit l) % 13 ≠ 0) ∧
    (∀ d, d ≤ 12 → d ≠ checkDigit l → (weightedSum l + d) % 13 ≠ 0) ∧
    (∀ i a b, i + 1 < 14 → l[i]? = some a → l[i + 1]? = some b → a ≠ b →
      (weightedSum ((l.set i b).set (i + 1) a) + checkDigit l) % 13 ≠ 0)

/-- The wait grade of an own record lies in 0 to 31; it falls at a tick exactly when its age becomes a multiple of 20,
by one, until it is 0; that of a carried record starts at Wc and falls likewise; the record's state plays no part
(R41, R42). The queue order is by class, wait grade, origin term and admission order, taken in turn; it is total on
records with different admission orders, and of any list of them the first is a member that no other precedes (R26). -/
def Obligations.GradesOrderTheQueue : Prop :=
  (∀ (now : Nat) (r : Record) (st : RecState),
     ({ r with state := st } : Record).grade now = r.grade now ∧
     (∀ o, r.kind = .own o → o.created ≤ now →
       r.grade now ≤ 31 ∧ r.grade o.created = 31 ∧
       (r.grade (now + 1) = if (now + 1 - o.created) % 20 = 0 then r.grade now - 1 else r.grade now)) ∧
     (∀ c, r.kind = .carried c → c.accepted ≤ now →
       r.grade now ≤ c.wc ∧ r.grade c.accepted = c.wc ∧
       (r.grade (now + 1) = if (now + 1 - c.accepted) % 20 = 0 then r.grade now - 1 else r.grade now))) ∧
  (∀ (now : Nat) (l : List Record), (l.map Record.order).Nodup →
     (∀ a ∈ l, ∀ b ∈ l, precedes now a b = true ↔
       a.cls < b.cls ∨ a.cls = b.cls ∧ (a.grade now < b.grade now ∨ a.grade now = b.grade now ∧
         (a.originTerm < b.originTerm ∨ a.originTerm = b.originTerm ∧ a.order < b.order))) ∧
     (∀ a ∈ l, ∀ b ∈ l, a ≠ b → (precedes now a b = true ↔ precedes now b a = false)) ∧
     (∀ r ∈ l, ∃ f, firstOf now l = some f ∧ f ∈ l ∧ precedes now r f = false))

/-! ### Frames -/

/-- Removing the inserted bits gives the stuffed region back, and no run of seven equal bits is ever sent in it (R77). -/
def Obligations.StuffedRegionReadsBack : Prop :=
  ∀ bits : List Bool, unstuff (stuff bits) = some bits ∧
    (∀ b, ¬ List.replicate 7 b <:+: stuff bits) ∧ (stuff bits).length ≤ bits.length + (bits.length - 1) / 5

/-- A frame as this station composes it is read back by a receiver as what went in, for all eight types and every value
in range (R177, Tables 11-1 to 11-3, Table 5-5); and what no rule reads at receipt stands where Table 11-2 puts it: the
barge flag of a CLAIM in bit 7, the phase of an OBJECT in byte 1, the seven faults of a STATE in bits 6 to 0 of byte 0,
its counts in bytes 1 and 2, and the line summary of Lk in bits 2k + 1 and 2k of byte 3 (R107, R176). -/
def Obligations.FramesReadBack : Prop :=
  (∀ key k barge, key < 7168 → key % 16 ≠ 0 →
    readClaim (claimFrame key k barge).value (packPayload 8 (claimFrame key k barge).payload)
      = some ⟨key % 16, key, k⟩ ∧
    (packPayload 8 (claimFrame key k barge).payload).getLsbD 7 = barge) ∧
  (∀ key k holding, key < 7168 → key % 16 ≠ 0 →
    readObject (objectFrame key k holding).value (packPayload 16 (objectFrame key k holding).payload)
      = some ⟨key % 16, key, k⟩ ∧
    payloadByte (packPayload 16 (objectFrame key k holding).payload) 1 = if holding then 2 else 1) ∧
  (∀ addr k reason, 1 ≤ addr → addr ≤ 15 →
    readRelease (releaseFrame addr k reason).value (packPayload 16 (releaseFrame addr k reason).payload)
      = some ⟨addr, k, reason⟩) ∧
  (∀ key seq, key < 7168 → key % 16 ≠ 0 →
    readOffer (offerFrame key seq).value (packPayload 8 (offerFrame key seq).payload) = some ⟨key % 16, seq⟩) ∧
  (∀ value origin seq, value ≤ 1023 → value % 16 ≠ 0 → 1 ≤ origin → origin ≤ 15 →
    readAccept (acceptFrame value origin seq).value (packPayload 16 (acceptFrame value origin seq).payload)
      = some ⟨value % 16, origin, seq⟩) ∧
  (∀ now addr acceptor account seq (r : Record), 1 ≤ addr → addr ≤ 15 → 1 ≤ acceptor → acceptor ≤ 15 →
    accountDecimal account = true → r.cls ≤ 6 → 1 ≤ r.source → r.source ≤ 99 → r.rep ≤ 9 → r.grade now ≤ 31 →
    readCarry (carryFrame now addr acceptor account seq r).value
        (packPayload 72 (carryFrame now addr acceptor account seq r).payload)
      = some ⟨addr, acceptor, seq, account, r.cls, r.qualifier, r.source, r.rep, r.grade now⟩) ∧
  (∀ addr origin seq result, 1 ≤ addr → addr ≤ 15 → 1 ≤ origin → origin ≤ 15 →
    readOutcome (outcomeFrame addr origin seq result).value
        (packPayload 24 (outcomeFrame addr origin seq result).payload) = some ⟨addr, origin, seq, result⟩) ∧
  (∀ addr fresh f queueCount carriedCount l, 1 ≤ addr → addr ≤ 15 → queueCount ≤ 24 → carriedCount ≤ 8 →
    carriedCount ≤ queueCount →
    let p := packPayload 32 (stateFrame addr fresh f queueCount carriedCount l).payload
    readState (stateFrame addr fresh f queueCount carriedCount l).value p = some ⟨addr, fresh⟩ ∧
    p.getLsbD 31 = fresh ∧ p.getLsbD 30 = f.configFault ∧ p.getLsbD 29 = f.addressClash ∧
    p.getLsbD 28 = f.fastClockFail ∧ p.getLsbD 27 = f.commFail ∧ p.getLsbD 26 = f.lineTrouble ∧
    p.getLsbD 25 = f.busTrouble ∧ p.getLsbD 24 = f.queueOverflow ∧
    payloadByte p 1 = queueCount ∧ payloadByte p 2 = carriedCount ∧
    ∀ k, payloadByte p 3 / 4 ^ k.index % 4 = match l.get k with
      | .notWired => 0
      | .usable => 1
      | .trouble => 2
      | .dead => 3)

/-! ### Start-up -/

/-- RESET takes every block to its reset values at once, whatever the station was doing (R165); what waits in the
model's queue of commands, and the model's own counter, are no part of the station (log entry 21); the settings,
straps, image and busy cycle count of the reset station, where the manual gives no value, are the model's choice (log
entries 7, 8 and 34). At the terminals RESET leaves every HOOK open and SEIZE released, no tone, RBUS released and not
driven, CFGCS High, no pulse on CFGCK and no bit on CFGDO, both Low, FAULT asserted and ONLINE released, and no sample
moves anything in reset (R165, Table 9-3). RELEASE_OF_RESET reads the straps once, starts station time from 0 and the
configuration read, and enters CONFIG_FAULT at an address of 0 (R40, R166, R167, R171). -/
def Obligations.ResetAndReleaseComplete : Prop :=
  (∀ s : State, exec .reset s = .next
    { loader := Loader.reset, time := 0, zone := ZoneUnit.reset, queue := AlertQueue.reset, view := LineView.reset
      rbc := Rbc.reset, call := CallEngine.idle, tone := Tone.reset, carry := CarryUnit.reset, clock := ClockUnit.reset
      ind := Indication.reset, free := s.free, pending := s.pending }) ∧
  (∀ s t : State, exec .reset s = .next t →
    (∀ read, t.terminals read = ⟨Four.const false, Four.const false, [], true, false, true, 0, [], true, false⟩) ∧
    (∀ loops, exec (.zoneSamplePass loops) t = .next t) ∧ ∀ volts, exec (.lineSamplePass volts) t = .next t) ∧
  (∀ (straps : BitVec 4) (s : State), s.loader.inReset = true →
    ∃ t, exec (.releaseOfReset straps) s = .next t ∧
      State.FramesOnly { s with
        time := 0
        loader := { s.loader with
          inReset := false, reading := true, strap := straps, configFault := decide (straps.toNat = 0) } } t)

/-- CONFIG_READ_DONE. An image that verifies, at an address that is not 0: the clamped settings handed over, the lines
wired, the join period started, the fresh-start mark set, the station-start event raised, zones sampled from now with
the test timer; the event before the sampling (R14, R169, R170). The same image at address 0: the settings and the
line set all the same, and the join period, but CONFIG_FAULT and its quiet, no event, no sampling and no STATE (R170,
R171, R175). An image that does not verify: CONFIG_FAULT and its quiet, with no setting handed over and no line wired
(R168, R171, R172). Verified or not, at an address that is not 0 the fresh-start mark is set, and the STATE is owed
where none has been loaded before and no spacing runs (R170, R175). That is so until the read ends, since until then
nothing moves but the loader, station time and, at address 0, the flag of the changed report (R165 to R168). -/
def Obligations.ConfigReadDoneCompletes : Prop :=
  State.reset.Unstarted ∧ (∀ (c : Instr) (s t : State), s.Unstarted → exec c s = .next t → t.Unstarted) ∧
  ∀ (image : BitVec 416) (s : State), s.loader.reading = true →
    (imageVerifies image = true → s.loader.configFault = false → s.address ≠ 0 →
      ∃ t, exec (.configReadDone image) s = .next t ∧
        (s.ind.last = none → s.ind.spacing = false → t.rbc.owes .state = true) ∧ t.ind.freshMark = true ∧
        State.Settled { s with
          loader := { s.loader with
            reading := false, image := image, verified := true, settings := imageSettings image }
          view := { s.view with entries := s.view.entries.mapLines fun k e =>
                      { e with wired := (image.getLsbD (8 * (51 - 27) + k.index)) } }
          clock := { s.clock with warmTime := imageWarmTime image }
          rbc := { s.rbc with join := .running }
          ind := { s.ind with freshMark := true }
          queue := s.queue.admitEvent s.time ⟨99, .start, .test, 6⟩
          zone := { s.zone with
            sampling := true
            testTimer := if (imageSettings image).testHours = 0 then none
              else some ((imageSettings image).testHours * 3600) } } t) ∧
    (s.loader.inReset = false → s.queue.records = [] → s.call = CallEngine.idle →
      s.clock.state = .quiet → s.carry.offer = none → s.carry.accept = none →
      (imageVerifies image = true → s.loader.configFault = true → s.address = 0 →
        ∃ t, exec (.configReadDone image) s = .next t ∧ t.FaultQuiet ∧ t.faultOutput = true ∧
          (s.rbc.owes .state = false → t.rbc.owes .state = false) ∧
          State.Settled { s with
            loader := { s.loader with
              reading := false, image := image, verified := true, settings := imageSettings image }
            view := { s.view with entries := s.view.entries.mapLines fun k e =>
                        { e with wired := (image.getLsbD (8 * (51 - 27) + k.index)) } }
            clock := { s.clock with warmTime := imageWarmTime image }
            rbc := { s.rbc with join := .running } } t) ∧
      (imageVerifies image = false →
        ∃ t, exec (.configReadDone image) s = .next t ∧ t.FaultQuiet ∧ t.loader.settings = s.loader.settings ∧
          (∀ k, t.entry k = s.entry k) ∧ t.faultOutput = true ∧ t.rbc.join = .running ∧
          (s.address ≠ 0 → t.ind.freshMark = true ∧
            (s.ind.last = none → s.ind.spacing = false → t.rbc.owes .state = true)) ∧
          (s.address = 0 → s.rbc.owes .state = false → t.rbc.owes .state = false)))

/-- The clamped fields lie in the ranges of Table 9-4, whatever the image holds; H is at most M - 1; a number holds at
most 20 digits, each 0 to 9 or a pause (R169). -/
def Obligations.SettingsAreClamped : Prop :=
  ∀ image : BitVec 416,
    (4 ≤ (imageSettings image).maxAttempts ∧ (imageSettings image).maxAttempts ≤ 15) ∧
    (2 ≤ (imageSettings image).handOff ∧ (imageSettings image).handOff ≤ 8 ∧
      (imageSettings image).handOff < (imageSettings image).maxAttempts) ∧
    (1 ≤ (imageSettings image).lineThreshold ∧ (imageSettings image).lineThreshold ≤ 7) ∧
    (imageSettings image).testHours ≤ 168 ∧ (10 ≤ imageWarmTime image ∧ imageWarmTime image ≤ 80) ∧
    (∀ n, ((imageSettings image).zones.get n).cls ≤ 3 ∧ 2 ≤ ((imageSettings image).zones.get n).debounce ∧
      ((imageSettings image).zones.get n).debounce ≤ 64) ∧
    (imageSettings image).number1.length ≤ 20 ∧ (imageSettings image).number2.length ≤ 20 ∧
    (∀ d, DialDigit.digit d ∈ (imageSettings image).number1 ++ (imageSettings image).number2 → d ≤ 9)

/-! ### Zones, lines as sampled, the station's own events -/

/-- A zone that is not in use stays NORMAL with both conditions false, from reset on and through every step; what stands
at its terminal changes nothing of a pass; it raises no event; and whether a zone is in use holds from the end of the
configuration read to the next reset (R1, R8). -/
def Obligations.UnusedZonesHaveNoEffect : Prop :=
  State.reset.ZonesSound ∧ (∀ s t : State, s.ZonesSound → step s = .next t → t.ZonesSound) ∧
  (∀ (loops loops' : Eight LoopMeasure) (s : State),
    (∀ n, (s.loader.settings.zones.get n).inUse = true → loops.get n = loops'.get n) →
    exec (.zoneSamplePass loops) s = exec (.zoneSamplePass loops') s) ∧
  (∀ (loops : Eight LoopMeasure) (s : State), ∀ e ∈ passEvents loops s,
    ∃ n : ZoneId, (s.loader.settings.zones.get n).inUse = true ∧ e.source = n.number) ∧
  (∀ (c : Instr) (s t : State), c ≠ .reset → s.loader.reading = false → exec c s = .next t →
    t.loader.settings = s.loader.settings)

/-- The two conditions of a zone are recomputed whenever its debounced state changes, and only then: alarm while ACTIVE,
trouble while OPEN or SHORT, never both; a change between OPEN and SHORT changes neither (R4). -/
def Obligations.ZoneConditionsFollowTheDebouncedState : Prop :=
  ∀ (loops : Eight LoopMeasure) (s t : State) (n : ZoneId), exec (.zoneSamplePass loops) s = .next t →
    let old := s.zone.zones.get n
    let new := t.zone.zones.get n
    (new.debounced ≠ old.debounced → new.Consistent) ∧
    (new.debounced = old.debounced → new.alarm = old.alarm ∧ new.trouble = old.trouble) ∧
    (old.Consistent → new.Consistent ∧ ¬ (new.alarm = true ∧ new.trouble = true) ∧
      (new.debounced = .normal → new.alarm = false ∧ new.trouble = false)) ∧
    (old.Consistent → old.debounced = .opened → new.debounced = .short → new.alarm = old.alarm ∧
      new.trouble = old.trouble)

/-- A band sampled as often as the debounce count says becomes a zone's debounced state, whatever came before; and fewer
samples of a band it was not in start the run anew and leave the state (R3). Eight equal samples set a line's sense
likewise, and fewer than eight of a band it was not in leave it (R56). -/
def Obligations.SamplesDebounce : Prop :=
  (∀ (z : Zone) (b c : Band) (debounce : Nat), 1 ≤ debounce →
    ((fun y => Zone.sample debounce b y)^[debounce] z).debounced = b ∧
    (c ≠ z.band → (Zone.sample debounce c z).run = 1) ∧
    (∀ n, n < debounce → c ≠ z.band → ((fun y => Zone.sample debounce c y)^[n] z).debounced = z.debounced)) ∧
  (∀ (e : Entry) (b c : LineBand),
    ((fun x => Entry.sample b x)^[8] e).sense = some b ∧
    (e.band ≠ some c → (e.sample c).run = 1) ∧
    (∀ n, n < 8 → e.band ≠ some c → ((fun x => Entry.sample c x)^[n] e).sense = e.sense))

/-- ZONE_SAMPLE_PASS samples every zone in use and no other, and hands the events of the pass to the queue, Z1's first
and Z8's last; in CONFIG_FAULT none (R1 to R4, R7, R15, R16). The events of one zone are those of Table 1-5: an alarm
onset of the zone's class, a trouble onset of class 4, and, with the restorals option set, the clearing of the
condition that ends, of class 5 and before the onset; none where the debounced state stays, or goes between OPEN and
SHORT (R5, R6). -/
def Obligations.ZonePassCompletes : Prop :=
  (∀ (n : ZoneId) (settings : ZoneSettings) (old new : Zone), old.Consistent → new.Consistent →
    let clearing := fun c : Condition => if settings.restorals then [Event.mk n.number c .cleared 5] else []
    let alarmOnset := [Event.mk n.number .alarm .new settings.cls]
    let troubleOnset := [Event.mk n.number .trouble .new 4]
    zoneEvents n settings old new = match old.debounced, new.debounced with
      | .normal, .normal => []
      | .normal, .active => alarmOnset
      | .normal, .opened => troubleOnset
      | .normal, .short => troubleOnset
      | .active, .normal => clearing .alarm
      | .active, .active => []
      | .active, .opened => clearing .alarm ++ troubleOnset
      | .active, .short => clearing .alarm ++ troubleOnset
      | .opened, .normal => clearing .trouble
      | .opened, .active => clearing .trouble ++ alarmOnset
      | .opened, .opened => []
      | .opened, .short => []
      | .short, .normal => clearing .trouble
      | .short, .active => clearing .trouble ++ alarmOnset
      | .short, .opened => []
      | .short, .short => []) ∧
  (∀ (loops : Eight LoopMeasure) (s : State),
    let events := fun n : ZoneId =>
      let settings := s.loader.settings.zones.get n
      let old := s.zone.zones.get n
      if settings.inUse then zoneEvents n settings old (old.sample settings.debounce (loopBand (loops.get n))) else []
    passEvents loops s = events .z1 ++ events .z2 ++ events .z3 ++ events .z4 ++ events .z5 ++ events .z6 ++ events .z7
      ++ events .z8) ∧
  ∀ (loops : Eight LoopMeasure) (s : State), s.zone.sampling = true →
    ∃ t, exec (.zoneSamplePass loops) s = .next t ∧
      State.Settled { s with
        zone := { s.zone with zones := Eight.ofZone fun n =>
          if (s.loader.settings.zones.get n).inUse then
            (s.zone.zones.get n).sample (s.loader.settings.zones.get n).debounce (loopBand (loops.get n))
          else s.zone.zones.get n }
        queue := if s.loader.configFault then s.queue
          else (passEvents loops s).foldl (fun q e => q.admitEvent s.time e) s.queue } t

/-- TEST_TIMER_EXPIRY raises the periodic test and reloads the timer (R13). BUS_TROUBLE_TIMER_EXPIRY makes the condition
true, raises its event and stops the timer (R11). In CONFIG_FAULT no event is raised (R15). DEAD_TIMER_EXPIRY sets the
line's dead flag, starts the all-dead timer with the last live wired line, and recomputes the trouble flags, so that a
wired line that was not in trouble raises its NEW event of class 4, and one that was raises none (R9, R57, R58, R70).
ALL_DEAD_TIMER_EXPIRY: the station is all-dead, and cannot dial as the Carry Unit asks (R58, R146). -/
def Obligations.SupervisionTimersComplete : Prop :=
  (∀ s : State, s.zone.testTimer = some 0 →
    ∃ t, exec .testTimerExpiry s = .next t ∧
      State.Settled { s with
        zone := { s.zone with testTimer :=
          if s.loader.settings.testHours = 0 then none else some (s.loader.settings.testHours * 3600) }
        queue := if s.loader.configFault then s.queue else s.queue.admitEvent s.time ⟨98, .periodic, .test, 6⟩ } t) ∧
  (∀ s : State, s.zone.busTimer = true →
    ∃ t, exec .busTroubleTimerExpiry s = .next t ∧
      State.Settled { s with
        zone := { s.zone with busTimer := false, busTrouble := true }
        queue := if s.loader.configFault then s.queue else s.queue.admitEvent s.time ⟨97, .bus, .new, 4⟩ } t) ∧
  (∀ (k : LineId) (s : State), (s.entry k).deadTimer = true →
    let troubled := fun j => (s.entry j).wired = true ∧
      (s.loader.settings.lineThreshold ≤ (s.entry j).failures ∨ j = k ∨ (s.entry j).dead = true)
    ∃ t, exec (.deadTimerExpiry k) s = .next t ∧ (t.entry k).dead = true ∧ (t.entry k).deadTimer = false ∧
      ((s.entry k).wired = true → (t.entry k).trouble = true ∧
        ((∀ j, j ≠ k → (s.entry j).wired = true → (s.entry j).dead = true) → t.view.allDead ≠ .absent)) ∧
      (∀ j, (t.entry j).trouble = true ↔ troubled j) ∧
      ((s.entry k).wired = true → (s.entry k).trouble = false → s.loader.configFault = false →
        (∀ j, j ≠ k → ((s.entry j).trouble = true ↔ troubled j)) →
        t.queue.SameButStates (s.queue.admitEvent s.time ⟨90 + k.index, .line, .new, 4⟩)) ∧
      ((∀ j, (s.entry j).trouble = true ↔ troubled j) → t.queue.SameButStates s.queue) ∧
      State.Settled (State.refreshTrouble { s with
        view := (s.view.update k fun e => { e with dead := true, deadTimer := false }).timeAllDead }) t) ∧
  (∀ s : State, s.view.allDead = .running →
    ∃ t, exec .allDeadTimerExpiry s = .next t ∧ t.view.allDead = .passed ∧ t.cannotDial = true ∧
      State.Settled { s with view := { s.view with allDead := .passed } } t)

/-- LINE_SAMPLE_PASS samples every wired line and no other: band, run and sense (R56), the dead timer and flag (R57),
the on-hook timer (R64). A call is touched only by the line-lost watch on the line whose HOOK is closed: a turn to
NO_BATTERY starts the line-lost timer, a turn to OFF_HOOK removes it, and a turn to ON_HOOK hangs the call up with
LINE_LOST (R129). A changed sense recomputes the trouble flags (R70); a dead flag that clears on a line with F below
the threshold raises the line's CLEARED event (R9), and with it the all-dead timer is absent (R58). Where the call is
lost in the same pass, that the event is admitted after the HANGUP step is the model's choice (R139, log entry 35),
and nothing is stated of it. -/
def Obligations.LinePassCompletes : Prop :=
  ∀ (volts : Four Int) (s : State), s.loader.verified = true →
    let sampled := fun k => if (s.entry k).wired then (s.entry k).sample (lineBand (volts.get k)) else s.entry k
    let turned := fun b => ∃ k, s.call.line = some k ∧ s.call.hook.get k = true ∧ (s.entry k).sense ≠ some b ∧
      (sampled k).sense = some b
    ∃ t, exec (.lineSamplePass volts) s = .next t ∧
      (∀ k, (t.entry k).band = (sampled k).band ∧ (t.entry k).run = (sampled k).run ∧
        (t.entry k).sense = (sampled k).sense ∧ (t.entry k).deadTimer = (sampled k).deadTimer ∧
        (t.entry k).dead = (sampled k).dead ∧ (t.entry k).onHookTimer = (sampled k).onHookTimer ∧
        (t.entry k).holder = (s.entry k).holder ∧ (t.entry k).pending = (s.entry k).pending ∧
        (t.entry k).wired = (s.entry k).wired ∧ (t.entry k).occupancy = (s.entry k).occupancy) ∧
      (∀ k, s.call.line = some k → turned .onHook → State.HungUp k .lineLost
        { s with view := ⟨s.view.entries.mapLines fun j _ => sampled j, t.view.allDead⟩ } t) ∧
      (s.call.state ≠ .idle →
        (turned .noBattery → t.call = { s.call with lineLost := true } ∧ t.tone = s.tone) ∧
        (turned .offHook → t.call = { s.call with lineLost := false } ∧ t.tone = s.tone) ∧
        (¬ turned .onHook → ¬ turned .noBattery → ¬ turned .offHook → t.call = s.call ∧ t.tone = s.tone)) ∧
      ((∃ k, (sampled k).sense ≠ (s.entry k).sense) → ∀ k, (t.entry k).trouble = true ↔
        (s.entry k).wired = true ∧
          (s.loader.settings.lineThreshold ≤ (t.entry k).failures ∨ (sampled k).dead = true)) ∧
      (∀ k, (s.entry k).wired = true → (s.entry k).dead = true → (sampled k).dead = false →
        t.view.allDead = .absent ∧
        (¬ turned .onHook → s.loader.configFault = false → (s.entry k).trouble = true →
          (s.entry k).failures < s.loader.settings.lineThreshold →
          (∀ j, j ≠ k → ((s.entry j).trouble = true ↔ (s.entry j).wired = true ∧
            (s.loader.settings.lineThreshold ≤ (s.entry j).failures ∨ (sampled j).dead = true))) →
          t.queue.SameButStates (s.queue.admitEvent s.time ⟨90 + k.index, .line, .cleared, 5⟩))) ∧
      t.loader = s.loader ∧ t.time = s.time ∧ t.zone = s.zone ∧
      { t.rbc with slots := s.rbc.slots, owed := s.rbc.owed } = s.rbc ∧
      t.carry.outcomes.length = s.carry.outcomes.length

/-! ### The Alert Queue -/

/-- An event with the qualifier of the latest WAITING record of its source and condition is merged into it, even with
the queue full: its repeat rises by one, to at most 9; nothing else of it changes, no record is created and no counter
moves (R28). Where the latest has the opposite qualifier and an earlier one the event's, the latest is withdrawn and
the last of those earlier ones takes the repeat (R29). With the overflow flag set the overflow event follows the
withdrawal: a WAITING record of source 95 takes it in, and else it is created in the freed place; either way the flag
clears (R32). An event whose qualifier no WAITING record of its source and condition has, with a place free, creates
one record, WAITING, with the next admission order and the first sequence number from the counter upward that no own
record holds, and the counter goes one past it (R18, R20, R21, R30, Table 2-4). -/
def Obligations.EventsMergeOrCreate : Prop :=
  ∀ (now : Nat) (e : Event) (q : AlertQueue), q.Sound →
    (∀ latest, lastOf now (q.records.filter fun r => r.waiting && r.reports e.source e.condition) = some latest →
      (latest.qualifier = e.qualifier → q.admitEvent now e = { q with records := q.records.map fun r =>
        if r = latest then { latest with rep := min 9 (latest.rep + 1) } else r }) ∧
      (∀ twin, latest.qualifier = .cleared ∧ e.qualifier = .new ∨ latest.qualifier = .new ∧ e.qualifier = .cleared →
        lastOf now (q.records.filter fun r => r.waiting && r.reports e.source e.condition &&
          decide (r.qualifier = e.qualifier)) = some twin →
        let left := (q.records.filter fun r => decide (r ≠ latest)).map fun r =>
          if r = twin then { twin with rep := min 9 (twin.rep + 1) } else r
        (q.admitEvent now e).overflow = false ∧
        (q.overflow = false → q.admitEvent now e = { q with records := left }) ∧
        (q.overflow = true → (∀ x ∈ left, x.waiting = true → x.reports 95 .overflow = false) →
          ∃ seq : Byte, FirstFree left q.seqCounter seq ∧
            q.admitEvent now e = { q with
              records := left ++ [{
                kind := .own ⟨seq, .overflow, now, now⟩, source := 95, qualifier := .new, cls := 4
                rep := 0, attempts := 0, notBefore := now, second := false, order := q.admissions, state := .waiting }]
              seqCounter := seq + 1
              admissions := q.admissions + 1
              overflow := false }) ∧
        (∀ w ∈ left, q.overflow = true → w.waiting = true → w.reports 95 .overflow = true → w.qualifier = .new →
          (∀ x ∈ left, x.waiting = true → x.reports 95 .overflow = true → x = w) →
          q.admitEvent now e = { q with
            records := left.map fun x => if x = w then { w with rep := min 9 (w.rep + 1) } else x
            overflow := false }))) ∧
    (q.count < 24 →
      (∀ r ∈ q.records, r.waiting = true → r.reports e.source e.condition = true → r.qualifier ≠ e.qualifier) →
      ∃ seq : Byte, FirstFree q.records q.seqCounter seq ∧
        q.admitEvent now e = { q with
          records := q.records ++ [{
            kind := .own ⟨seq, e.condition, now, now⟩, source := e.source, qualifier := e.qualifier, cls := e.cls
            rep := 0, attempts := 0, notBefore := now, second := false, order := q.admissions, state := .waiting }]
          seqCounter := seq + 1
          admissions := q.admissions + 1 })

/-- With the queue full and nothing to merge with, a new record takes the place of the victim, an own WAITING record
of class 3 to 6 and of a less urgent class than the event; with no victim the event is lost; either way the overflow
flag is set (R31). -/
def Obligations.FullQueueDisplaces : Prop :=
  ∀ (now : Nat) (e : Event) (q : AlertQueue), q.Sound → q.count = 24 →
    (∀ r ∈ q.records, r.waiting = true → r.reports e.source e.condition = true → r.qualifier ≠ e.qualifier) →
    (q.admitEvent now e).overflow = true ∧ (q.overflow = false → (q.admitEvent now e).queueOverflow = true) ∧
    (q.admitEvent now e).count = 24 ∧
    ((∀ r ∈ q.records, r.isOwn = true → r.waiting = true → 3 ≤ r.cls → r.cls ≤ e.cls) →
      (q.admitEvent now e).records = q.records) ∧
    ((∃ r ∈ q.records, r.isOwn = true ∧ r.waiting = true ∧ 3 ≤ r.cls ∧ e.cls < r.cls) →
      ∃ v ∈ q.records, v.isOwn = true ∧ v.waiting = true ∧ 3 ≤ v.cls ∧ e.cls < v.cls ∧
        (∀ r ∈ q.records, r.isOwn = true → r.waiting = true → 3 ≤ r.cls → e.cls < r.cls → r ≠ v →
          precedes now r v = true) ∧
        ∃ new, (q.admitEvent now e).records = q.records.filter (fun r => decide (r ≠ v)) ++ [new] ∧
          new.source = e.source ∧ new.cls = e.cls ∧ new.state = .waiting)

/-- A record given back is WAITING. An own one of class 3 to 6 takes in the WAITING own record of its source, condition
and qualifier, whose repeat plus one it adds to its own, to at most 9; every other record stays, and with no such record
there is no join (R22, R25). No overflow flag is set here: with one set the join's departure admits the overflow event
too (R32). -/
def Obligations.RecordsReturnAndJoin : Prop :=
  ∀ (now : Nat) (q : AlertQueue) (r : Record), q.Sound → r ∈ q.records → q.overflow = false →
    let twin := fun w : Record => w ∈ q.records ∧ w ≠ r ∧ w.state = .waiting ∧ 3 ≤ r.cls ∧ w.source = r.source ∧
      w.qualifier = r.qualifier ∧ ∃ a b, r.kind = .own a ∧ w.kind = .own b ∧ a.condition = b.condition
    ((∀ w, ¬ twin w) → q.giveBack now r.order = { q with records := q.records.map fun x =>
      if x = r then { r with state := .waiting } else x }) ∧
    ((∃ w, twin w) → ∃ w, twin w ∧
      q.giveBack now r.order = { q with records := (q.records.filter fun x => decide (x ≠ w)).map fun x =>
        if x = r then { r with state := .waiting, rep := min 9 (r.rep + (w.rep + 1)) } else x })

/-- A departure takes one record out. With the overflow flag set it admits the overflow event too, source 95, NEW, class
4, which a WAITING record of that source takes in, and which else is created in the freed place; either way the flag
clears, and the QUEUE_OVERFLOW condition does not (R32). A delivery clears the comm-fail indicator, and QUEUE_OVERFLOW
exactly where the record delivered is an own one of source 95 (R33, R34). -/
def Obligations.DeparturesCallOverflow : Prop :=
  ∀ (now : Nat) (q : AlertQueue) (r : Record), q.Sound → r ∈ q.records →
    let left := q.records.filter fun x => decide (x ≠ r)
    (q.overflow = false → q.depart now r.order = { q with records := left }) ∧
    (q.overflow = true → (∀ x ∈ left, x.waiting = true → x.reports 95 .overflow = false) →
      ∃ seq : Byte, FirstFree left q.seqCounter seq ∧
        q.depart now r.order = { q with
          records := left ++ [{
            kind := .own ⟨seq, .overflow, now, now⟩, source := 95, qualifier := .new, cls := 4
            rep := 0, attempts := 0, notBefore := now, second := false, order := q.admissions, state := .waiting }]
          seqCounter := seq + 1
          admissions := q.admissions + 1
          overflow := false }) ∧
    (∀ w ∈ left, q.overflow = true → w.waiting = true → w.reports 95 .overflow = true → w.qualifier = .new →
      (∀ x ∈ left, x.waiting = true → x.reports 95 .overflow = true → x = w) →
      q.depart now r.order = { q with
        records := left.map fun x => if x = w then { w with rep := min 9 (w.rep + 1) } else x
        overflow := false }) ∧
    (q.deliver now r).commFail = false ∧ (q.deliver now r).records = (q.depart now r.order).records ∧
    (q.deliver now r).overflow = false ∧
    ((∃ o, r.kind = .own o ∧ r.source = 95) → (q.deliver now r).queueOverflow = false) ∧
    ((¬ ∃ o, r.kind = .own o ∧ r.source = 95) → (q.deliver now r).queueOverflow = q.queueOverflow)

/-! ### Station time -/

/-- The lead is the first in queue order of the records that are WAITING, with their not-before time reached, of class
0 to 2 in solo mode, at a station with a wired line, a number 1 and no fast-clock failure (R27). STATION_TIME_TICK:
station time up by one; U of each wired line up by 3 to at most 60 in OFFICE, else down by 1; the test timer counts
down; and an IDLE engine takes the lead as it then is: where a candidate line is found, the claim is placed (R13, R40,
R47, R100, R101). -/
def Obligations.TickCompletes : Prop :=
  (∀ (s : State) (r : Record), s.queue.Sound →
    let mayLead := fun x : Record => x ∈ s.queue.records ∧ x.state = .waiting ∧ x.notBefore ≤ s.time ∧
      (s.solo = true → x.cls ≤ 2) ∧ (∃ k, (s.entry k).wired = true) ∧ s.loader.settings.number1 ≠ [] ∧
      s.clock.latch = false
    (s.lead = some r ↔ mayLead r ∧ ∀ x, mayLead x → x ≠ r → precedes s.time r x = true)) ∧
  ∀ s : State, s.loader.inReset = false →
    let ticked : State := { s with
      time := s.time + 1
      view := { s.view with entries := s.view.entries.mapLines fun _ e =>
        if e.wired then { e with occupancy :=
          if e.derived = .office then min 60 (e.occupancy + 3) else e.occupancy - 1 } else e }
      zone := { s.zone with testTimer := s.zone.testTimer.map fun n => n - 1 } }
    ∃ t, exec .stationTimeTick s = .next t ∧ State.Settled ticked t ∧
      (∀ r k tier, s.queue.Sound → s.call = CallEngine.idle → s.loader.configFault = false → ticked.lead = some r →
        candidate ticked.view.entries s.solo r.cls = some (k, tier) → State.Placed r k tier ticked t)

/-- NOT_BEFORE_PASSES: the lead is taken afresh, and an IDLE engine with a candidate line places the claim (R27, R100,
R101). NEXT_OFFER_TIME_PASSES: with the Call Engine in a call, or IDLE with no lead or no line for it, no offer
outstanding and neither solo mode nor CONFIG_FAULT, the first due record in queue order is OFFERED from now, the
outstanding offer is its own, and the OFFER is owed; due is an own WAITING record whose next-offer time has come, with H
attempts or at a station that cannot dial: no wired line, no number 1, all-dead, or a fast-clock failure (R45, R146,
R147). CARRY_TIMEOUT: a record HANDED for 15 minutes is given back to WAITING (R25, R153). -/
def Obligations.StoredTimesComplete : Prop :=
  (∀ (s : State) (r : Record) (k : LineId) (tier : Tier), s.queue.Sound → r.notBefore = s.time →
    s.call = CallEngine.idle → s.loader.configFault = false → s.lead = some r →
    candidate s.view.entries s.solo r.cls = some (k, tier) →
    ∃ t, exec .notBeforePasses s = .next t ∧ State.Settled s t ∧ State.Placed r k tier s t) ∧
  (∀ (s : State) (r : Record), s.queue.Sound →
    let due := fun x : Record => x ∈ s.queue.records ∧ x.state = .waiting ∧
      (∃ o, x.kind = .own o ∧ o.nextOffer ≤ s.time) ∧
      (s.loader.settings.handOff ≤ x.attempts ∨ (∀ k, (s.entry k).wired = false) ∨ s.loader.settings.number1 = [] ∨
        s.view.allDead = .passed ∨ s.clock.latch = true)
    (s.offerable = some r ↔ s.carry.offer = none ∧ s.solo = false ∧ s.loader.configFault = false ∧ due r ∧
      ∀ x, due x → x ≠ r → precedes s.time r x = true)) ∧
  (∀ (s : State) (r : Record) (o : OwnPart), s.queue.Sound →
    s.call.state ≠ .idle ∨ (∀ l, s.lead = some l → candidate s.view.entries s.solo l.cls = none) →
    s.offerable = some r → r.kind = .own o → o.nextOffer = s.time →
    ∃ t, exec .nextOfferTimePasses s = .next t ∧ State.Settled s t ∧
      { r with state := .offered s.time } ∈ t.queue.records ∧
      t.carry.offer = some ⟨o.seq, composeKey r.cls (r.grade s.time) 1 s.address, .owed⟩ ∧
      t.rbc.owes (.offer o.seq (composeKey r.cls (r.grade s.time) 1 s.address)) = true) ∧
  (∀ (seq : Byte) (s : State) (r : Record) (carrier since : Nat), s.queue.findSeq seq = some r →
    r.state = .handed carrier since → since + 900 ≤ s.time →
    ∃ t, exec (.carryTimeout seq) s = .next t ∧
      State.Settled { s with queue := s.queue.giveBack s.time r.order } t)

/-! ### Claims upon the view -/

/-- PENDING_GUARD_PASSES with no holder promotes the pending claim, which becomes the holder; with a holder its yield
limit starts. YIELD_LIMIT_EXPIRY clears the holder and promotes the pending claim in one step (R63, R64, R106).
PEER_IDLE_LIMIT clears the holder, with a pending claim whose guard has passed promoted in the same step; a claim of
this station that waited on it is ready, and with fast-ready held the engine enters SEIZE on its line (R63, R65, R112,
R126, R127). -/
def Obligations.PeerTimersComplete : Prop :=
  (∀ (k : LineId) (s : State) (p : Pending), (s.entry k).pending = some p →
     let promoted : Entry := { s.entry k with
       pending := none
       holder := some ⟨p.addr, p.key⟩
       onHookTimer := decide ((s.entry k).sense = some .onHook) }
     let waits : Entry := { s.entry k with pending := some ⟨p.addr, p.key, true, true⟩ }
     (p.guardPassed = false → ∃ t, exec (.pendingGuardPasses k) s = .next t ∧
       ((s.entry k).holder = none →
         State.Settled { s with view := { s.view with entries := s.view.entries.set k promoted } } t) ∧
       ((s.entry k).holder.isSome = true →
         State.Settled { s with view := { s.view with entries := s.view.entries.set k waits } } t)) ∧
     (p.yieldLimit = true → ∃ t, exec (.yieldLimitExpiry k) s = .next t ∧
       State.Settled { s with view := { s.view with entries := s.view.entries.set k promoted } } t)) ∧
  (∀ (k : LineId) (s : State), s.LineSound → (s.entry k).onHookTimer = true →
     ∃ t cleared, exec (.peerIdleLimit k) s = .next t ∧
       (∀ p, (s.entry k).pending = some p → p.guardPassed = true → cleared = { s.entry k with
         pending := none
         holder := some ⟨p.addr, p.key⟩
         onHookTimer := decide ((s.entry k).sense = some .onHook) }) ∧
       ((∀ p, (s.entry k).pending = some p → p.guardPassed = false) →
         cleared = { s.entry k with holder := none, onHookTimer := false }) ∧
       ((s.entry k).waitingOnHolder = false ∨ s.call.state ≠ .claim →
         State.Settled { s with view := { s.view with entries := s.view.entries.set k cleared } } t) ∧
       ((s.entry k).waitingOnHolder = true → s.call.state = .claim →
         t.call.guardDone = true ∧ t.view = { s.view with entries := s.view.entries.set k cleared } ∧
         t.call.state = (if s.call.fastReady then .seize else .claim) ∧
         (s.call.fastReady = true → t.call.seize.get k = true ∧ t.call.hook.get k = !(s.entry k).barge)))

/-- OWN_GUARD_PASSES sets own-guard-done; with a holder on the entry the call waits, with none guard-done is reported.
YIELD_WAIT_EXPIRY: a claim that waits on a holder clears it from its own entry and is ready. A ready claim with
fast-ready held enters SEIZE: SEIZEk asserted, HOOKk closed at once unless barging (R104, R112, R126, R127). -/
def Obligations.OwnClaimBecomesReady : Prop :=
  ∀ (k : LineId) (s : State), s.LineSound → s.call.line = some k → s.call.state = .claim →
    ((s.entry k).ownGuard = .running → (s.entry k).holder.isSome = true →
      ∃ t, exec .ownGuardPasses s = .next t ∧ t.call = s.call ∧
        State.Settled { s with view := { s.view with entries := s.view.entries.set k { s.entry k with
          ownGuard := .passed
          ownGuardDone := true } } } t) ∧
    (∀ c made,
      (c = .ownGuardPasses ∧ (s.entry k).ownGuard = .running ∧ (s.entry k).holder = none ∧
        made = { s.entry k with
          ownGuard := .passed
          ownGuardDone := true }) ∨
      (c = .yieldWaitExpiry ∧ (s.entry k).ownGuard = .passed ∧ (s.entry k).ownGuardDone = true ∧
        (s.entry k).holder.isSome = true ∧ (∀ p, (s.entry k).pending = some p → p.guardPassed = false) ∧
        made = { s.entry k with
          holder := none
          onHookTimer := false }) →
      ∃ t, exec c s = .next t ∧ t.view = { s.view with entries := s.view.entries.set k made } ∧
        (s.call.fastReady = false → t.call = { s.call with guardDone := true }) ∧
        (s.call.fastReady = true → t.call = { s.call with
          guardDone := true
          state := .seize
          barge := (s.entry k).barge
          seize := s.call.seize.set k true
          hook := if (s.entry k).barge then s.call.hook else s.call.hook.set k true
          timer := some (if (s.entry k).barge then .bargeClearing else .dialToneWait)
          lineLost := if (s.entry k).barge then s.call.lineLost
            else decide ((s.entry k).sense = some .noBattery) }) ∧
        t.loader = s.loader ∧ t.time = s.time ∧ t.zone = s.zone ∧ t.tone = s.tone ∧ t.clock = s.clock ∧
        t.queue.records.map Record.still = s.queue.records.map Record.still)

/-! ### The bus -/

/-- A bit read raises its own run count by one and takes the other to 0; in BUS_OFF a recessive bit raises the recovery
count and a dominant one takes it to 0 (R75, R89). JOIN_PERIOD_END, BUS_IDLE, START_OF_FRAME_RECEIVED and
PASSIVE_SUSPEND_END move the bus controller's own conditions and nothing else of the station (R75, R78, R85, R95); that
BUS_IDLE ends a reception still marked is the model's choice (log entry 30). FRAME_START on an idle bus, once joined and
outside BUS_OFF, STUCK and the suspend, puts in transmission the loaded slot of the lowest arbitration field, the first
loaded of equals, counts its start-of-frame bit as it is read back, and touches nothing else (R75, R79, R91). -/
def Obligations.WireConditionsComplete : Prop :=
  (∀ (b : Rbc) (bits : List Bool),
    b.readBits (bits ++ [true]) = { b.readBits bits with
      recessiveRun := (b.readBits bits).recessiveRun + 1
      dominantRun := 0
      recovery := if b.busOff then (b.readBits bits).recovery + 1 else (b.readBits bits).recovery } ∧
    b.readBits (bits ++ [false]) = { b.readBits bits with
      recessiveRun := 0
      dominantRun := (b.readBits bits).dominantRun + 1
      recovery := 0 }) ∧
  (∀ s : State, s.rbc.join = .running →
    exec .joinPeriodEnd s = .next { s with rbc := { s.rbc with join := .passed } }) ∧
  (∀ s : State, s.rbc.join ≠ .absent → s.rbc.stuck = false → s.rbc.sendingSlot = none →
    (∀ read, s.rbc.recessiveRun < 11 → (s.rbc.readBits read).recessiveRun = 11 →
      exec (.busIdle read) s = .next { s with rbc := { s.rbc.readBits read with receiving := false } }) ∧
    (11 ≤ s.rbc.recessiveRun → exec .startOfFrameReceived s = .next { s with rbc := { s.rbc with
      recessiveRun := 0
      dominantRun := s.rbc.dominantRun + 1
      recovery := 0
      receiving := true
      suspend := false
      frameBits := [] } }) ∧
    (11 ≤ s.rbc.recessiveRun → s.rbc.suspend = true →
      ∃ t, exec .passiveSuspendEnd s = .next t ∧ t.rbc.suspend = false ∧ 19 ≤ t.rbc.recessiveRun ∧
        { t with rbc := s.rbc } = s ∧
        { t.rbc with
          suspend := s.rbc.suspend
          recessiveRun := s.rbc.recessiveRun
          dominantRun := s.rbc.dominantRun
          recovery := s.rbc.recovery } = s.rbc) ∧
    (s.rbc.join = .passed → s.rbc.busOff = false → s.rbc.suspend = false → 11 ≤ s.rbc.recessiveRun →
      s.rbc.slots ≠ [] → ∀ start,
      ∃ t m i, exec (.frameStart start) s = .next t ∧ s.rbc.slots[i]? = some m ∧
        (∀ x ∈ s.rbc.slots, m.frame.arbitration ≤ x.frame.arbitration) ∧
        (∀ (j : Nat) x, j < i → s.rbc.slots[j]? = some x → m.frame.arbitration < x.frame.arbitration) ∧
        t = { s with rbc := { s.rbc with
          slots := s.rbc.slots.set i { m with sending := true }
          recessiveRun := if start then s.rbc.recessiveRun + 1 else 0
          dominantRun := if start then 0 else s.rbc.dominantRun + 1
          recovery := if start then s.rbc.recovery else 0 } }))

/-- Over the bits of a frame after its start-of-frame bit, with the inserted ones among them: the station drives the
ACK slot exactly where they are a whole stuffed region of the type's length whose CRC is right, and it is neither
STUCK nor in BUS_OFF; CHECK is found exactly at the ACK slot after one whose CRC is wrong; FORM exactly at a seventh
equal bit within the region, or at a dominant bit of the nine after an ACK slot that follows a right CRC; no receiver
finds BIT or ACK (R76, R77, R81, R83, R89, R90). RECEIVE_ERROR, at the bit at which the error shows, discards the
frame: REC up by one to at most 255, but in BUS_OFF; the run counts are those of the bits read and, at an active
station, of the eight bits of its abort pattern as it reads them back; TEC, the slots and the rest of the station are
as they were (R75, R83 to R85, R87, R89). ARBITRATION_LOST: the attempt ends without an error and changes no counter
but the run counts; the slot stays loaded with its attempts as they were, unless an abort was held; the station
receives from the start-of-frame bit; a passive one owes its suspend, as the model reads it (log entry 13); no block
is touched (R75, R80, R85, R91, R93). -/
def Obligations.LostFramesComplete : Prop :=
  (∀ (b : Rbc) (read : List Bool),
    let bits := b.frameBits ++ read
    let right := fun fields : List Bool => bitsOf 8 (crc fields).toNat
    (b.drivesAck read = true ↔ b.receiving = true ∧ b.stuck = false ∧ b.busOff = false ∧
      ∃ fields, WholeRegion fields (right fields) bits) ∧
    (b.findsError .check read = true ↔
      ∃ fields given sent slot, WholeRegion fields given sent ∧ given ≠ right fields ∧ bits = sent ++ [slot]) ∧
    (b.findsError .form read = true ↔
      (∃ fields given sent before x, WholeRegion fields given sent ∧ before <+: sent ∧
        List.replicate 6 x <:+ false :: before ∧ bits = before ++ [x]) ∨
      (∃ fields sent slot n, WholeRegion fields (right fields) sent ∧ n ≤ 8 ∧
        bits = sent ++ slot :: List.replicate n true ++ [false])) ∧
    b.findsError .bit read = false ∧ b.findsError .ack read = false) ∧
  (∀ (kind : ErrorKind) (read : List Bool) (echo : BitVec 8) (s : State), s.rbc.receiving = true →
    s.rbc.stuck = false → kind = .form ∨ kind = .check → s.rbc.findsError kind read = true →
    let w := (s.rbc.readBits read).readBits (if s.rbc.confinement = .active then bitsOf 8 echo.toNat else [])
    ∃ t, exec (.receiveError kind read echo) s = .next t ∧ t.rbc.receiving = false ∧
      t.rbc.rxErrors = (if s.rbc.busOff then s.rbc.rxErrors else min 255 (s.rbc.rxErrors + 1)) ∧
      t.rbc.txErrors = s.rbc.txErrors ∧ t.rbc.slots = s.rbc.slots ∧ t.rbc.owed = s.rbc.owed ∧
      t.rbc.dominantRun = w.dominantRun ∧ t.rbc.recessiveRun = w.recessiveRun ∧ t.rbc.recovery = w.recovery ∧
      (s.rbc.confinement = .active → echo = 0 →
        t.rbc.dominantRun = (s.rbc.readBits read).dominantRun + 8 ∧ t.rbc.recessiveRun = 0) ∧
      { t with rbc := s.rbc } = s) ∧
  (∀ (read : List Bool) (s : State) (x : Slot), s.rbc.sendingSlot = some x → x.frame.lostBy read = true →
    s.rbc.recessiveRun = 0 →
    let w := s.rbc.readBits read
    ∃ t, exec (.arbitrationLost read) s = .next t ∧ t.rbc.receiving = true ∧ t.rbc.frameBits = read ∧
      t.rbc.txErrors = s.rbc.txErrors ∧ t.rbc.rxErrors = s.rbc.rxErrors ∧
      t.rbc.dominantRun = w.dominantRun ∧ t.rbc.recessiveRun = w.recessiveRun ∧
      t.rbc.sendingSlot = none ∧ t.rbc.suspend = s.rbc.passive ∧
      (x.abort = false → { x with sending := false } ∈ t.rbc.slots) ∧
      t.call = s.call ∧ t.view = s.view ∧ t.queue = s.queue ∧ t.clock = s.clock ∧ t.zone = s.zone ∧
      t.loader = s.loader ∧ t.time = s.time ∧ t.tone = s.tone ∧ t.carry.offer = s.carry.offer ∧
      t.carry.accept = s.carry.accept)

/-- TRANSMIT_ERROR, at the bit at which the error shows in what the station reads back of its frame: TEC rises by 8 to
at most 255, but not at the ACK error of a passive station, and REC stays; the run counts are those of the bits read
and, at an active station, of the bits of its abort pattern as it reads them back; no slot is in transmission any
more; a frame with no abort held and fewer than three ACK errors waits in its slot for the retry, its unacknowledged
attempts counted; and TEC at 192 takes a station outside solo mode into BUS_OFF, with every RELEASE dropped and the
bus trouble timer started (R11, R75, R82, R84, R86, R89, R91, R94); that a RELEASE which waits for another of its line
is dropped with it is the model's choice (log entry 33). A start-of-frame bit that reads recessive is a BIT error, at
once and no other (R83, Table 5-3). -/
def Obligations.TransmitErrorCompletes : Prop :=
  (∀ (kind : ErrorKind) (read : List Bool) (echo : BitVec 8) (s : State) (x : Slot), s.rbc.sendingSlot = some x →
    s.rbc.stuck = false →
    kind = .bit ∨ kind = .form ∨ kind = .ack → s.rbc.losesAttempt kind x.frame read = true →
    let w := (s.rbc.readBits read).readBits (if s.rbc.confinement = .active then bitsOf 8 echo.toNat else [])
    ∃ t, exec (.transmitError kind read echo) s = .next t ∧
      t.rbc.txErrors = (if kind = .ack ∧ 128 ≤ s.rbc.txErrors then s.rbc.txErrors
        else min 255 (s.rbc.txErrors + 8)) ∧
      t.rbc.rxErrors = s.rbc.rxErrors ∧ t.rbc.sendingSlot = none ∧ t.rbc.stuck = false ∧
      t.rbc.dominantRun = w.dominantRun ∧ t.rbc.recessiveRun = w.recessiveRun ∧
      (s.rbc.confinement = .active → echo = 0 →
        t.rbc.dominantRun = (s.rbc.readBits read).dominantRun + 8 ∧ t.rbc.recessiveRun = 0) ∧
      t.time = s.time ∧ t.loader = s.loader ∧ t.tone = s.tone ∧
      (t.rbc.busOff = s.rbc.busOff → x.abort = false → kind ≠ .ack ∨ x.unacked + 1 < 3 →
        { x with
          sending := false
          unacked := if kind = .ack then x.unacked + 1 else x.unacked } ∈ t.rbc.slots ∧ t.zone = s.zone) ∧
      (t.rbc.busOff = true → s.rbc.busOff = false →
        (∀ m ∈ t.rbc.owed, m.isRelease = false) ∧ (∀ y ∈ t.rbc.slots, y.marker.isRelease = false) ∧
        t.rbc.recovery = 0 ∧ t.zone = { s.zone with busTimer := true })) ∧
  (∀ (s t : State) (x : Slot) (kind : ErrorKind) (read : List Bool), s.rbc.mayStart = true →
    exec (.frameStart true) s = .next t → t.rbc.sendingSlot = some x →
    (t.rbc.losesAttempt kind x.frame read = true ↔ kind = .bit ∧ read = []))

/-- Solo mode. STUCK_ENTRY, the 64th dominant bit: sending and receiving are given up, the counters stay, every
RELEASE is dropped, and a station not in solo mode already enters it, its bus trouble timer started (R11, R90, R94,
R116). STUCK_EXIT: back to the confinement state held, the bus idle; unless that is BUS_OFF solo mode ends, the bus
trouble timer and condition clear, and a condition that was true raises its clearing (R11, R90, R116).
BUS_OFF_RECOVERY: both counters 0, ERROR_ACTIVE, the run counts those of the bits read, the bus idle, and solo mode
ends likewise (R11, R75, R89, R116). That a RELEASE which waits for another of its line is dropped with it is the
model's choice (log entry 33). -/
def Obligations.SoloModeBeginsAndEnds : Prop :=
  (∀ s : State, s.rbc.join ≠ .absent → s.rbc.stuck = false →
    ∃ t, exec .stuckEntry s = .next t ∧ t.rbc.stuck = true ∧ t.solo = true ∧ t.rbc.dominantRun = 64 ∧
      t.rbc.receiving = false ∧ t.rbc.sendingSlot = none ∧ t.rbc.txErrors = s.rbc.txErrors ∧
      t.rbc.rxErrors = s.rbc.rxErrors ∧ (∀ m ∈ t.rbc.owed, m.isRelease = false) ∧
      (∀ y ∈ t.rbc.slots, y.marker.isRelease = false) ∧
      t.zone = (if s.solo then s.zone else { s.zone with busTimer := true }) ∧
      t.time = s.time ∧ t.loader = s.loader ∧ t.tone = s.tone) ∧
  (∀ s : State, s.rbc.stuck = true → s.rbc.busOff = true →
    ∃ t, exec .stuckExit s = .next t ∧ t.solo = true ∧
      State.Settled { s with rbc := { s.rbc with
        stuck := false
        recessiveRun := 11
        dominantRun := 0
        recovery := 11 } } t) ∧
  (∀ (s : State) (read : List Bool),
    let ended : State := { s with
      zone := { s.zone with busTimer := false, busTrouble := false }
      queue := if s.zone.busTrouble = true ∧ s.loader.configFault = false then
        s.queue.admitEvent s.time ⟨97, .bus, .cleared, 5⟩ else s.queue }
    (s.rbc.stuck = true → s.rbc.busOff = false →
      ∃ t, exec .stuckExit s = .next t ∧ t.solo = false ∧
        State.Settled { ended with rbc := { s.rbc with
          stuck := false
          recessiveRun := 11
          dominantRun := 0
          recovery := 0 } } t) ∧
    (s.rbc.stuck = false → s.rbc.busOff = true → s.rbc.Sound → (s.rbc.readBits read).recovery = 2048 →
      ∃ t, exec (.busOffRecovery read) s = .next t ∧ t.rbc.confinement = .active ∧ t.solo = false ∧ t.rbc.idle = true ∧
        State.Settled { ended with rbc := { s.rbc.readBits read with
          txErrors := 0
          rxErrors := 0
          recovery := 0
          receiving := false } } t))

/-- What entry to solo mode, to STUCK or to BUS_OFF, does to a claim in progress, by its phase (R117). Placed, with a
lead of class 0 to 2 and a line of tiers 1 to 3: its CLAIM is gone and the claim is ready. Placed otherwise: its CLAIM
is gone and the claim is abandoned: placed afresh on a line of tiers 1 to 3 where a lead of class 0 to 2 has one
(R102), else with the engine IDLE and no RELEASE of its line owed. Guarding: the guard has passed, and with no holder the
claim is ready. In every other phase, and past CLAIM, the call and the view are as they were. That a RELEASE which waits
for another of its line (R113) is dropped with it, so that none is owed after the entry, is the model's choice (log entry
33). -/
def Obligations.SoloModeTreatsTheClaim : Prop :=
  ∀ (c : Instr) (s : State) (k : LineId), s.LineSound → s.queue.Sound → s.solo = false → s.call.line = some k →
    (c = .stuckEntry ∧ s.rbc.join ≠ .absent) ∨
      (∃ kind read echo x, c = .transmitError kind read echo ∧ s.rbc.sendingSlot = some x ∧ kind ≠ .ack ∧
        s.rbc.losesAttempt kind x.frame read = true ∧ 184 ≤ s.rbc.txErrors) →
    let allowed := ∃ r, s.callLead = some r ∧ r.cls ≤ 2 ∧
      (s.entry k).tier ∈ [some .free, some .office, some .troubled]
    let cleared := s.view.entries.set k (s.entry k).others
    ∃ t, exec c s = .next t ∧ t.solo = true ∧
      (s.call.state = .claim → (s.entry k).placed = true →
        (∀ key barge, t.rbc.owes (.claim k key barge) = false) ∧
        (allowed → t.call.line = some k ∧ t.call.lead = s.call.lead ∧ t.call.guardDone = true ∧
          t.call.state = (if s.call.fastReady then .seize else .claim) ∧ t.clock = s.clock ∧
          t.view = { s.view with entries := s.view.entries.set k { s.entry k with ownGuardDone := true } }) ∧
        (∀ r j tier, ¬ allowed → s.callLead = some r → r.cls ≤ 2 → s.canDial = true →
          candidate cleared true r.cls = some (j, tier) → State.Rechosen k j tier r true s t) ∧
        (¬ allowed → candidate cleared true 0 = none ∨ (∀ x ∈ s.queue.records, 3 ≤ x.cls) →
          t.call = CallEngine.idle ∧ (t.entry k).own = false ∧ t.queue.NoneInCall ∧
          (∀ reason, t.rbc.owes (.release k reason) = false))) ∧
      (s.call.state = .claim → (s.entry k).ownGuard = .running →
        t.view = { s.view with entries := s.view.entries.set k { s.entry k with
          ownGuard := .passed
          ownGuardDone := true } } ∧
        ((s.entry k).holder.isSome = true → t.call = s.call) ∧
        ((s.entry k).holder = none → t.call.line = some k ∧ t.call.guardDone = true ∧
          t.call.state = (if s.call.fastReady then .seize else .claim))) ∧
      (s.call.state ≠ .claim ∨ (s.entry k).placed = false ∧ (s.entry k).ownGuard ≠ .running →
        t.call = s.call ∧ t.view = s.view ∧ t.clock = s.clock)

/-! ### Frames received -/

/-- A received frame that bears this station's own address latches ADDRESS_CLASH and is applied nowhere, whatever its
type; REC counts it as good (R87, R96, R174). So is a frame with a field out of the ranges of Table 5-5 counted as good,
and it reaches no block (R87, R96): a class part of 7, a line above 3, a value above 15 or 1023, an address of 0, an
undefined code. -/
def Obligations.FramesAppliedNowhere : Prop :=
  (∀ (value : BitVec 13) (s : State), s.rbc.receiving = true → s.rbc.stuck = false → s.address ≠ 0 →
    senderOf value = s.address →
    ∀ (c : Instr) (f : Frame) (acked : Bool),
      ((∃ p, c = .claimReceived value p acked ∧ f = receivedFrame .claim value p) ∨
        (∃ p, c = .objectReceived value p acked ∧ f = receivedFrame .object value p) ∨
        (∃ p, c = .releaseReceived value p acked ∧ f = receivedFrame .release value p) ∨
        (∃ p, c = .offerReceived value p acked ∧ f = receivedFrame .offer value p) ∨
        (∃ p, c = .acceptReceived value p acked ∧ f = receivedFrame .accept value p) ∨
        (∃ p, c = .carryReceived value p acked ∧ f = receivedFrame .carry value p) ∨
        (∃ p, c = .outcomeReceived value p acked ∧ f = receivedFrame .outcome value p) ∨
        (∃ p, c = .stateReceived value p acked ∧ f = receivedFrame .state value p)) →
      ∃ t, exec c s = .next t ∧ t.ind.addressClash = true ∧
        State.FramesOnly { s.heard f acked with ind := { s.ind with addressClash := true } } t) ∧
  (∀ (value : BitVec 13) (acked : Bool) (s : State), s.Hears value →
    (∀ p, senderOf value = 0 ∨ 7168 ≤ value.toNat ∨ 3 < payloadByte p 0 % 16 →
      exec (.claimReceived value p acked) s = .next (s.heard (receivedFrame .claim value p) acked)) ∧
    (∀ p, senderOf value = 0 ∨ 7168 ≤ value.toNat ∨ 3 < payloadByte p 0 % 16 ∨ payloadByte p 1 ∉ [1, 2] →
      exec (.objectReceived value p acked) s = .next (s.heard (receivedFrame .object value p) acked)) ∧
    (∀ p, senderOf value = 0 ∨ 15 < value.toNat ∨ 3 < payloadByte p 0 % 16 ∨ payloadByte p 1 ∉ [1, 2, 3, 4] →
      exec (.releaseReceived value p acked) s = .next (s.heard (receivedFrame .release value p) acked)) ∧
    (∀ p, senderOf value = 0 ∨ 7168 ≤ value.toNat →
      exec (.offerReceived value p acked) s = .next (s.heard (receivedFrame .offer value p) acked)) ∧
    (∀ p, senderOf value = 0 ∨ 1023 < value.toNat ∨ payloadByte p 0 % 16 = 0 →
      exec (.acceptReceived value p acked) s = .next (s.heard (receivedFrame .accept value p) acked)) ∧
    (∀ p, senderOf value = 0 ∨ 15 < value.toNat ∨ payloadByte p 0 % 16 = 0 ∨
        (∃ i, i < 6 ∧ 9 < accountDigit (carryAccount p) i) ∨ 6 < payloadByte p 5 / 16 ∨
        payloadByte p 5 % 16 ∉ [1, 2, 3] ∨ payloadByte p 6 = 0 ∨ 99 < payloadByte p 6 ∨ 9 < payloadByte p 7 ∨
        31 < payloadByte p 8 →
      exec (.carryReceived value p acked) s = .next (s.heard (receivedFrame .carry value p) acked)) ∧
    (∀ p, senderOf value = 0 ∨ 15 < value.toNat ∨ payloadByte p 0 % 16 = 0 ∨ payloadByte p 2 ∉ [1, 2] →
      exec (.outcomeReceived value p acked) s = .next (s.heard (receivedFrame .outcome value p) acked)) ∧
    (∀ p, senderOf value = 0 ∨ 15 < value.toNat ∨ 24 < payloadByte p 1 ∨ 8 < payloadByte p 2 ∨
        payloadByte p 1 < payloadByte p 2 →
      exec (.stateReceived value p acked) s = .next (s.heard (receivedFrame .state value p) acked)))

/-- A CLAIM from a peer on a wired line that this station does not hold is applied by Table 6-3: recorded as pending
with its guard running, in place of one it qualifies against or of the same peer's, with a holder of the same peer
cleared in the same step; else the entry is unchanged (R62, R105). -/
def Obligations.ObservedClaimCompletes : Prop :=
  ∀ (value : BitVec 13) (payload : BitVec 8) (acked : Bool) (f : ClaimFields) (s : State), s.Hears value →
    readClaim value payload = some f → (s.entry f.line).wired = true →
    (s.entry f.line).own = false ∨ s.call.state = .hangup →
    let stands := ∃ p, (s.entry f.line).pending = some p ∧ p.addr ≠ f.addr ∧ ¬ keyClass f.key + 2 ≤ keyClass p.key
    let itsHolder := ∃ h, (s.entry f.line).holder = some h ∧ h.addr = f.addr
    let heard := s.heard (receivedFrame .claim value payload) acked
    ∃ t e, exec (.claimReceived value payload acked) s = .next t ∧
      State.Settled { heard with view := { s.view with entries := s.view.entries.set f.line e } } t ∧
      (stands → e = s.entry f.line) ∧
      (¬ stands → itsHolder → e = { s.entry f.line with
        pending := some ⟨f.addr, f.key, false, false⟩
        holder := none
        onHookTimer := false }) ∧
      (¬ stands → ¬ itsHolder → e = { s.entry f.line with pending := some ⟨f.addr, f.key, false, false⟩ })

/-- A CLAIM on this station's own line, past the placed phase, that does not qualify against its key is not recorded
and is answered by one OBJECT; one that qualifies is recorded as at any observer, by Table 6-3, and makes the call
yield: up to HANDSHAKE and between messages at once, to HANGUP with PREEMPTED; in SEND and the kiss-off wait the flag
alone is set (R107, R108, R111, R137). That HANGUP counts nothing against a record, and owes its RELEASE outside solo
mode alone (R113, R139, R143). -/
def Obligations.ContestedLineIsDefendedOrYielded : Prop :=
  ∀ (value : BitVec 13) (payload : BitVec 8) (acked : Bool) (f : ClaimFields) (key : Nat) (s : State),
    s.Hears value → s.LineSound →
    readClaim value payload = some f → s.call.line = some f.line → s.call.state ≠ .hangup →
    (s.entry f.line).ownKey = some key → (s.call.state = .claim → (s.entry f.line).placed = false) →
    s.call.yieldPending = false →
    let stands := ∃ p, (s.entry f.line).pending = some p ∧ p.addr ≠ f.addr ∧ ¬ keyClass f.key + 2 ≤ keyClass p.key
    let itsHolder := ∃ h, (s.entry f.line).holder = some h ∧ h.addr = f.addr
    let heard := s.heard (receivedFrame .claim value payload) acked
    ∃ t, exec (.claimReceived value payload acked) s = .next t ∧
      (¬ keyClass f.key + 2 ≤ keyClass key →
        t.call = s.call ∧ t.view = s.view ∧ t.rbc.owes (.object f.line) = true ∧
        State.Settled { heard with
          rbc := if s.rbc.owes (.object f.line) then heard.rbc else heard.rbc.owe (.object f.line) } t) ∧
      (keyClass f.key + 2 ≤ keyClass key →
        ∃ e, { t.entry f.line with trouble := e.trouble } = e ∧
          (∀ j, j ≠ f.line → { t.entry j with trouble := (s.entry j).trouble } = s.entry j) ∧
          (stands → e = s.entry f.line) ∧
          (¬ stands → itsHolder → e = { s.entry f.line with
            pending := some ⟨f.addr, f.key, false, false⟩
            holder := none
            onHookTimer := false }) ∧
          (¬ stands → ¬ itsHolder → e = { s.entry f.line with pending := some ⟨f.addr, f.key, false, false⟩ }) ∧
          (s.call.state = .send ∨ s.call.state = .kissoff ∧ s.call.timer ≠ some .betweenMessages →
            t.call = { s.call with yieldPending := true } ∧ t.tone = s.tone) ∧
          (s.call.state = .claim ∨ s.call.state = .seize ∨ s.call.state = .dial ∨ s.call.state = .handshake ∨
              s.call.state = .kissoff ∧ s.call.timer = some .betweenMessages →
            State.HungUp f.line .preempted { heard with
              view := { s.view with entries := s.view.entries.set f.line e }
              call := { s.call with yieldPending := true } } t))

/-- A CLAIM for the line of this station's own claim in its placed phase makes it give the claim up whatever the two
keys: the CLAIM is recorded on the unowned entry as at any observer, the own CLAIM is no longer owed, and the choice is
taken afresh for the same lead. On another line, or on this one in tier 4, the claim is placed at once; with no line to
be had the lead is WAITING again and the engine IDLE, with nothing counted; stated of a lead of class 3 to 6 where no
WAITING record of its report is there for it to be joined with (R25, R102, R103, R105, R126). -/
def Obligations.PlacedClaimIsSurrendered : Prop :=
  ∀ (value : BitVec 13) (payload : BitVec 8) (acked : Bool) (f : ClaimFields) (r : Record) (s : State),
    s.Hears value → s.LineSound → s.queue.Sound → readClaim value payload = some f → s.call.line = some f.line →
    s.call.state = .claim → (s.entry f.line).placed = true → s.callLead = some r →
    let recorded := (s.entry f.line).others.observeClaim f.addr f.key
    let view := s.view.entries.set f.line recorded
    ∃ t, exec (.claimReceived value payload acked) s = .next t ∧
      (t.entry f.line).others = recorded ∧
      ((s.entry f.line).pending = none → (t.entry f.line).pending = some ⟨f.addr, f.key, false, false⟩) ∧
      (∀ j tier, s.mayCall r.cls = true → s.canDial = true → candidate view s.solo r.cls = some (j, tier) →
        State.Rechosen f.line j tier r s.solo s t) ∧
      ((3 ≤ r.cls → ∀ w ∈ s.queue.records, w ≠ r → w.waiting = true → r.sameReport w = false) →
        (∀ x ∈ s.queue.records, x.state = .inCall → x = r) → candidate view s.solo 0 = none →
        State.GivenUp f.line s t ∧
        (s.rbc.sendingSlot = none → ∀ key barge, t.rbc.owes (.claim f.line key barge) = false))

/-- When the Line Coordinator receives an OBJECT for a wired line, the pending claim goes with its timers and the
objector becomes the holder with its key, the on-hook timer started exactly where the sense is ON_HOOK, whatever the
objector's phase and whatever this station's own flag (R109). -/
def Obligations.ObjectSetsTheHolder : Prop :=
  ∀ (value : BitVec 13) (payload : BitVec 16) (acked : Bool) (f : ClaimFields) (s : State), s.Hears value →
    readObject value payload = some f → (s.entry f.line).wired = true →
    ∃ t, exec (.objectReceived value payload acked) s = .next t ∧ (t.entry f.line).pending = none ∧
      (t.entry f.line).holder = some ⟨f.addr, value.toNat⟩ ∧
      (t.entry f.line).onHookTimer = decide ((s.entry f.line).sense = some .onHook)

/-- What an OBJECT does beyond the entry: at an observer nothing; in CLAIM, in any phase, the claim is abandoned, and
the choice taken afresh places it on another line for the same lead, or, with none to be had, leaves the engine IDLE
with nothing counted, which is stated of a lead of class 3 to 6 where no WAITING record of its report is there for it
to be joined with (R25, R102); to a call in SEIZE, DIAL or HANDSHAKE, HANGUP with ABANDONED, which counts nothing
against a record; in SEND, KISSOFF and HANGUP it is ignored (R109, R110, R139). -/
def Obligations.ObjectReceivedCompletes : Prop :=
  ∀ (value : BitVec 13) (payload : BitVec 16) (acked : Bool) (f : ClaimFields) (s : State),
    s.Hears value → s.LineSound →
    readObject value payload = some f → (s.entry f.line).wired = true →
    let objected : Entry := { s.entry f.line with
      pending := none
      holder := some ⟨f.addr, f.key⟩
      onHookTimer := decide ((s.entry f.line).sense = some .onHook) }
    let heard := s.heard (receivedFrame .object value payload) acked
    let viewed : State := { heard with view := { s.view with entries := s.view.entries.set f.line objected } }
    ∃ t, exec (.objectReceived value payload acked) s = .next t ∧
      ((s.entry f.line).own = false ∨ s.call.state = .send ∨ s.call.state = .kissoff ∨ s.call.state = .hangup →
        State.Settled viewed t) ∧
      ((s.entry f.line).own = true → s.call.state = .claim → s.queue.Sound → ∀ r, s.callLead = some r →
        let left := s.view.entries.set f.line objected.others
        (t.entry f.line).others = objected.others ∧
        (∀ j tier, s.mayCall r.cls = true → s.canDial = true → candidate left s.solo r.cls = some (j, tier) →
          State.Rechosen f.line j tier r s.solo s t) ∧
        ((3 ≤ r.cls → ∀ w ∈ s.queue.records, w ≠ r → w.waiting = true → r.sameReport w = false) →
          (∀ x ∈ s.queue.records, x.state = .inCall → x = r) → candidate left s.solo 0 = none →
          State.GivenUp f.line s t)) ∧
      ((s.entry f.line).own = true → s.call.state = .seize ∨ s.call.state = .dial ∨ s.call.state = .handshake →
        State.HungUp f.line .abandoned viewed t)

/-- A RELEASE clears its sender where it is the holder, with the promotion of R63, and where it is the pending
claimant; from any other station it is stale; its reason changes nothing. A claim of this station that waits on that
holder has its guard-done (R112, R114). -/
def Obligations.ReleaseReceivedCompletes : Prop :=
  ∀ (value : BitVec 13) (payload : BitVec 16) (acked : Bool) (f : ReleaseFields) (s : State), s.Hears value →
    readRelease value payload = some f → (s.entry f.line).wired = true →
    let held := ∃ h, (s.entry f.line).holder = some h ∧ h.addr = f.addr
    let heard := s.heard (receivedFrame .release value payload) acked
    ∃ t e, exec (.releaseReceived value payload acked) s = .next t ∧
      (held → ∀ p, (s.entry f.line).pending = some p → p.guardPassed = true → e = { s.entry f.line with
        pending := none
        holder := some ⟨p.addr, p.key⟩
        onHookTimer := decide ((s.entry f.line).sense = some .onHook) }) ∧
      (held → (∀ p, (s.entry f.line).pending = some p → p.guardPassed = false) → e = { s.entry f.line with
        holder := none
        onHookTimer := false }) ∧
      (¬ held → (∃ p, (s.entry f.line).pending = some p ∧ p.addr = f.addr) →
        e = { s.entry f.line with pending := none }) ∧
      (¬ held → (∀ p, (s.entry f.line).pending = some p → p.addr ≠ f.addr) → e = s.entry f.line) ∧
      (t.entry f.line).others = e.others ∧
      (¬ held ∨ (s.entry f.line).waitingOnHolder = false ∨ s.call.state ≠ .claim →
        State.Settled { heard with view := { s.view with entries := s.view.entries.set f.line e } } t) ∧
      (held → (s.entry f.line).waitingOnHolder = true → s.call.state = .claim → t.call.guardDone = true)

/-- A station is eligible to accept, but for the marker it may hold, while it is willing, in neither CONFIG_FAULT nor
solo mode, past its join period, with no fast-clock failure, a number 1, no comm failure, a wired line neither dead
nor in trouble, fewer than 24 records and fewer than 8 carried; its best score is the lowest of those lines' (R49,
R154). An eligible station that hears an OFFER sets its accept-pending marker and owes an ACCEPT of 16 times its
lowest usable score plus its address; any other does nothing with it (R49, R154). The first ACCEPT for the outstanding
offer in its window stops the window and owes a CARRY to the bidder; every other ACCEPT naming this station is
ignored; another bidder's for the record this station bids for ends its own bid, and one for any other record changes
nothing (R149, R155). In each case nothing else of the station changes but the counters of the frame's end (R87). -/
def Obligations.OfferAndAcceptReceivedComplete : Prop :=
  (∀ s : State,
    let usable := fun k => (s.entry k).wired = true ∧ (s.entry k).dead = false ∧ (s.entry k).trouble = false
    let score := fun k => min 63 (8 * (s.entry k).failures + (s.entry k).occupancy / 4)
    (s.eligible = true ↔ s.loader.settings.willing = true ∧ s.loader.configFault = false ∧ s.solo = false ∧
      s.rbc.join = .passed ∧ s.clock.latch = false ∧ s.loader.settings.number1 ≠ [] ∧ s.queue.commFail = false ∧
      (∃ k, usable k) ∧ s.queue.records.length < 24 ∧ (s.queue.records.filter Record.isCarried).length < 8) ∧
    ∀ best, s.view.bestScore = some best ↔
      (∃ k, usable k ∧ score k = best) ∧ ∀ k, usable k → best ≤ score k) ∧
  (∀ (value : BitVec 13) (payload : BitVec 8) (acked : Bool) (f : OfferFields) (s : State), s.Hears value →
    readOffer value payload = some f →
    let heard := s.heard (receivedFrame .offer value payload) acked
    ∃ t, exec (.offerReceived value payload acked) s = .next t ∧
      (∀ score, heard.eligible = true → s.carry.accept = none → s.view.bestScore = some score →
        t.rbc.owes (.accept f.origin f.seq (16 * score + s.address)) = true ∧
        State.FramesOnly { heard with
          carry := { s.carry with accept := some ⟨f.origin, f.seq, 16 * score + s.address⟩ }
          rbc := heard.rbc.owe (.accept f.origin f.seq (16 * score + s.address)) } t) ∧
      (heard.eligible = true → s.view.bestScore.isSome = true) ∧
      (heard.eligible = false ∨ s.carry.accept.isSome = true → State.FramesOnly heard t)) ∧
  (∀ (value : BitVec 13) (payload : BitVec 16) (acked : Bool) (f : AcceptFields) (s : State), s.Hears value →
    readAccept value payload = some f →
    let heard := s.heard (receivedFrame .accept value payload) acked
    ∃ t, exec (.acceptReceived value payload acked) s = .next t ∧
      (∀ key, f.origin = s.address → s.carry.offer = some ⟨f.seq, key, .window⟩ →
        t.rbc.owes (.carry f.seq f.sender) = true ∧
        State.FramesOnly { heard with
          carry := { s.carry with offer := some ⟨f.seq, key, .carrying f.sender⟩ }
          rbc := heard.rbc.owe (.carry f.seq f.sender) } t) ∧
      (f.origin = s.address → (∀ key, s.carry.offer ≠ some ⟨f.seq, key, .window⟩) → State.FramesOnly heard t) ∧
      (f.origin ≠ s.address →
        (∀ v, s.carry.accept = some ⟨f.origin, f.seq, v⟩ →
          State.FramesOnly { heard with carry := { s.carry with accept := none } } t ∧
          (s.rbc.sendingSlot = none → t.rbc.owes (.accept f.origin f.seq v) = false)) ∧
        ((∀ v, s.carry.accept ≠ some ⟨f.origin, f.seq, v⟩) → State.FramesOnly heard t)))

/-- A CARRY addressed to this station outside CONFIG_FAULT is taken in: a duplicate of a record held is ignored; with
room the record is admitted WAITING with the fields of the frame; with none an OUTCOME RETURNED is owed. Addressed
elsewhere it is ignored. In each case a bid of this station's own for the very record, if it holds one, ends (R19,
R155 to R157). A new OUTCOME takes the place of the entry of the same origin and sequence number whose frame is in no
slot, its result alone changing; else it is added at the end, and where the list holds 16 the oldest entry in no slot
is withdrawn first, so that with at most three frames in slots the list never holds more (R157). -/
def Obligations.CarryReceivedCompletes : Prop :=
  (∀ (c : CarryUnit) (origin : Nat) (seq : Byte) (result : Result),
    let twin := fun e : OutcomeEntry => e.origin = origin ∧ e.seq = seq ∧ e.inSlot = false
    let new : OutcomeEntry := ⟨origin, seq, result, false⟩
    (∀ before e after, c.outcomes = before ++ e :: after → twin e → (∀ x ∈ before, ¬ twin x) →
      c.addOutcome origin seq result = { c with outcomes := before ++ new :: after }) ∧
    ((∀ x ∈ c.outcomes, ¬ twin x) →
      (c.outcomes.length < 16 → c.addOutcome origin seq result = { c with outcomes := c.outcomes ++ [new] }) ∧
      (∀ before e after, 16 ≤ c.outcomes.length → c.outcomes = before ++ e :: after → e.inSlot = false →
        (∀ x ∈ before, x.inSlot = true) →
        c.addOutcome origin seq result = { c with outcomes := before ++ after ++ [new] })) ∧
    (c.outcomes.length ≤ 16 → (c.outcomes.filter OutcomeEntry.inSlot).length ≤ 3 →
      (c.addOutcome origin seq result).outcomes.length ≤ 16 ∧
      new ∈ (c.addOutcome origin seq result).outcomes)) ∧
  ∀ (value : BitVec 13) (payload : BitVec 72) (acked : Bool) (f : CarryFields) (s : State), s.Hears value →
    readCarry value payload = some f →
    let duplicate := ∃ r ∈ s.queue.records, ∃ c, r.kind = .carried c ∧ c.orphaned = false ∧ c.origin = f.origin ∧
      c.originSeq = f.seq ∧ r.cls = f.cls ∧ r.source = f.source ∧ r.qualifier = f.qualifier
    let heard := s.heard (receivedFrame .carry value payload) acked
    ∃ t, exec (.carryReceived value payload acked) s = .next t ∧
      (∀ v, s.carry.accept = some ⟨f.origin, f.seq, v⟩ → t.carry.accept = none) ∧
      (f.acceptor ≠ s.address ∨ s.loader.configFault = true ∨ duplicate → State.Settled heard t) ∧
      (f.acceptor = s.address → s.loader.configFault = false → ¬ duplicate → s.queue.count < 24 →
        s.queue.carriedCount < 8 →
        State.Settled { heard with queue := { s.queue with
          records := s.queue.records ++ [{
            kind := .carried ⟨f.origin, f.seq, f.account, f.grade, s.time, false⟩
            source := f.source, qualifier := f.qualifier, cls := f.cls, rep := f.rep, attempts := 0
            notBefore := s.time, second := false, order := s.queue.admissions, state := .waiting }]
          admissions := s.queue.admissions + 1 } } t) ∧
      (f.acceptor = s.address → s.loader.configFault = false → ¬ duplicate →
        24 ≤ s.queue.count ∨ 8 ≤ s.queue.carriedCount →
        State.Settled { heard with carry := s.carry.addOutcome f.origin f.seq .returned } t)

/-- An OUTCOME for another origin, or for a seq no own record holds, or DELIVERED for a record IN_CALL, or RETURNED
from another than the carrier it is HANDED to, changes nothing. DELIVERED removes a record in any other state, clears
the comm-fail indicator, with the comm CLEARED event of class 5 where it was set, and ends its offer in any phase: its
OFFER or its CARRY is owed no more unless on the wire, and an offer outstanding afterwards is a new one, of another
record (R151). RETURNED brings the record back to WAITING from now (R10, R35, R38, R151, R152). -/
def Obligations.OutcomeReceivedCompletes : Prop :=
  ∀ (value : BitVec 13) (payload : BitVec 24) (acked : Bool) (f : OutcomeFields) (s : State),
    s.Hears value → s.queue.Sound →
    readOutcome value payload = some f →
    let heard := s.heard (receivedFrame .outcome value payload) acked
    ∃ t, exec (.outcomeReceived value payload acked) s = .next t ∧
      (f.origin ≠ s.address ∨ s.queue.findSeq f.seq = none → State.Settled heard t) ∧
      (∀ r, f.origin = s.address → s.queue.findSeq f.seq = some r →
        (f.result = .delivered → r.state = .inCall → State.Settled heard t) ∧
        (f.result = .delivered → r.state ≠ .inCall →
          t.queue.SameButStates (if s.queue.commFail = true ∧ s.loader.configFault = false then
            (s.queue.deliver s.time r).admitEvent s.time ⟨96, .comm, .cleared, 5⟩ else s.queue.deliver s.time r) ∧
          t.queue.commFail = false ∧ (∀ x ∈ t.queue.records, x.order ≠ r.order) ∧
          (∀ o since, r.state = .offered since → s.carry.offer = some o → o.seq = f.seq →
            (∀ new, t.carry.offer = some new → new.phase = .owed ∧
              ∃ x ∈ t.queue.records, x.order ≠ r.order ∧ x.hasSeq new.seq = true ∧ x.state = .offered s.time) ∧
            (s.rbc.sendingSlot = none →
              (o.phase = .owed → t.carry.offer ≠ some o → t.rbc.owes (.offer o.seq o.key) = false) ∧
              ∀ acceptor, o.phase = .carrying acceptor → t.rbc.owes (.carry o.seq acceptor) = false))) ∧
        (f.result = .returned → (∀ since, r.state ≠ .handed f.sender since) → State.Settled heard t) ∧
        (f.result = .returned → (∃ since, r.state = .handed f.sender since) →
          State.Settled { heard with queue :=
            (s.queue.modify r.order fun x => { x with notBefore := s.time }).giveBack s.time r.order } t))

/-- A STATE with the fresh-start mark orphans the sender's carried records, withdraws the OUTCOMEs owed to it that are
in no slot, and ends an accept-pending marker for it; a STATE without the mark changes nothing (R23, R159). -/
def Obligations.StateReceivedCompletes : Prop :=
  ∀ (value : BitVec 13) (payload : BitVec 32) (acked : Bool) (f : StateFields) (s : State), s.Hears value →
    readState value payload = some f →
    let heard := s.heard (receivedFrame .state value payload) acked
    ∃ t, exec (.stateReceived value payload acked) s = .next t ∧ t.call = s.call ∧ t.view = s.view ∧ t.clock = s.clock ∧
      t.carry.offer = s.carry.offer ∧ t.zone = s.zone ∧ t.time = s.time ∧ t.loader = s.loader ∧
      (f.fresh = false → State.FramesOnly heard t) ∧
      (f.fresh = true →
        t.queue = { s.queue with records := s.queue.records.map fun r => match r.kind with
          | .own _ => r
          | .carried c => if c.origin = f.sender then { r with kind := .carried { c with orphaned := true } } else r } ∧
        (∀ e ∈ t.carry.outcomes, e.origin = f.sender → e.inSlot = true ∧ e ∈ s.carry.outcomes) ∧
        (∀ a, t.carry.accept = some a → s.carry.accept = some a ∧ a.origin ≠ f.sender) ∧
        ((∀ a, s.carry.accept = some a → a.origin ≠ f.sender) → t.carry.accept = s.carry.accept))

/-! ### Frames sent -/

/-- A CLAIM of this station in its placed phase that ends on the bus, acknowledged or at its third ACK error, starts
the own guard and removes a pending claim that it displaces (R82, R104). An OBJECT or a RELEASE that ends so leaves
its slot, and the station is otherwise as it was (R108, R113). That a passive station's suspend is judged by TEC as it
stands after it has changed is the model's reading (R85, section 5.5, log entry 13). -/
def Obligations.LineFramesSentComplete : Prop :=
  ∀ (s : State) (x : Slot) (c : Instr) (b : Rbc), s.rbc.sendingSlot = some x →
    (∀ k key barge, x.marker = .claim k key barge → s.call.state = .claim → (s.entry k).placed = true →
      (s.entry k).ownKey = some key → s.Ends x .claim .claimSent c b →
      ∃ t, exec c s = .next t ∧ t.rbc.sendingSlot = none ∧
        State.Settled { s with
          rbc := b
          view := { s.view with entries := s.view.entries.set k { s.entry k with
            ownGuard := .running
            pending := if (s.entry k).tier = some .overPending then none else (s.entry k).pending } } } t) ∧
    (∀ k, x.marker = .object k → s.Ends x .object .objectSent c b →
      ∃ t, exec c s = .next t ∧ t.rbc.sendingSlot = none ∧ State.Settled { s with rbc := b } t) ∧
    (∀ k reason, x.marker = .release k reason → s.Ends x .release .releaseSent c b →
      ∃ t, exec c s = .next t ∧ t.rbc.sendingSlot = none ∧ State.Settled { s with rbc := b } t)

/-- The OFFER sent starts the offer window (R147). The ACCEPT sent leaves the accept-pending marker (R155). The CARRY
sent makes the record HANDED to the carrier from now and ends the offer (R22, R150). The OUTCOME sent takes its entry
off the outcome list (R157). The STATE sent starts the spacing timer and, if it carried the mark, clears it (R175). Each
does so acknowledged or at its third ACK error alike (R82). That a passive station's suspend is judged by TEC as it
stands after it has changed is the model's reading (R85, section 5.5, log entry 13). -/
def Obligations.CarryFramesSentComplete : Prop :=
  ∀ (s : State) (x : Slot) (c : Instr) (b : Rbc), s.rbc.sendingSlot = some x →
    (∀ seq key, x.marker = .offer seq key → s.carry.offer = some ⟨seq, key, .owed⟩ → s.Ends x .offer .offerSent c b →
      ∃ t, exec c s = .next t ∧ t.rbc.sendingSlot = none ∧
        State.Settled { s with
          rbc := b
          carry := { s.carry with offer := some ⟨seq, key, .window⟩ } } t) ∧
    (∀ origin seq value, x.marker = .accept origin seq value → s.Ends x .accept .acceptSent c b →
      ∃ t, exec c s = .next t ∧ t.rbc.sendingSlot = none ∧ t.carry.accept = s.carry.accept ∧
        State.Settled { s with rbc := b } t) ∧
    (∀ seq key acceptor r, x.marker = .carry seq acceptor → s.queue.Sound →
      s.carry.offer = some ⟨seq, key, .carrying acceptor⟩ → s.queue.findSeq seq = some r →
      s.Ends x .carry .carrySent c b →
      ∃ t, exec c s = .next t ∧ t.rbc.sendingSlot = none ∧
        { r with state := .handed acceptor s.time } ∈ t.queue.records ∧
        (∀ o, t.carry.offer = some o → o.phase = .owed) ∧
        State.Settled { s with
          rbc := b
          carry := { s.carry with offer := none }
          queue := s.queue.modify r.order fun y => { y with state := .handed acceptor s.time } } t) ∧
    (∀ origin seq result, x.marker = .outcome origin seq result → s.Ends x .outcome .outcomeSent c b →
      ∃ t, exec c s = .next t ∧ t.rbc.sendingSlot = none ∧
        State.Settled { s with
          rbc := b
          carry := { s.carry with outcomes := s.carry.outcomes.erase ⟨origin, seq, result, true⟩ } } t) ∧
    (x.marker = .state → s.Ends x .state .stateSent c b →
      ∃ t, exec c s = .next t ∧ t.rbc.sendingSlot = none ∧
        State.Settled { s with
          rbc := b
          ind := { s.ind with spacing := true, freshMark := s.ind.freshMark && !x.frame.fresh } } t)

/-- An empty slot is loaded with the frame of the lowest arbitration field, so of the lowest type code and within it
the lowest value, and of equals with the marker owed first; it stands behind the slots loaded before it. In every step
no slot is left empty while a marker waits that may be loaded, and in reset none waits (R91, R92). -/
def Obligations.SlotsLoadInOrder : Prop :=
  (∀ (s : State) (m : Marker) (f : Frame) (before after : List (Marker × Frame)), s.rbc.slots.length < 3 →
    s.loadable = before ++ (m, f) :: after → (∀ x ∈ before, f.arbitration < x.2.arbitration) →
    (∀ x ∈ after, f.arbitration ≤ x.2.arbitration) →
    s.loadOne.rbc.slots = s.rbc.slots ++ [⟨m, f, 0, false, false⟩] ∧ s.loadOne.rbc.owed = s.rbc.owed.erase m) ∧
  (∀ f g : Frame, f.arbitration < g.arbitration ↔
    f.type.code < g.type.code ∨ f.type.code = g.type.code ∧ f.value.toNat < g.value.toNat) ∧
  State.reset.SlotsFilled ∧ ∀ (c : Instr) (s t : State), s.SlotsFilled → exec c s = .next t → t.SlotsFilled

/-! ### The Indication Unit -/

/-- FAULT is asserted until the configuration has verified, and while any of the seven conditions holds (R172). The
STATE-owed flag is set exactly while the reported items differ from the last contents, once there are any, and a STATE
is then owed outside the spacing, but at address 0; every step keeps it so (R175). At the end of start-up, at an
address that is not 0, the first STATE is loaded in that very step, with the fresh-start mark, and the last contents
are those reported; at address 0 none is owed (R170, R175). A STATE loaded into a slot carries the fresh-start mark,
the seven conditions, the two counts and the line summary as they then stand, and the reported items become the last
contents (R176). -/
def Obligations.Indications : Prop :=
  (∀ s : State, s.faultOutput = true ↔ s.loader.verified = false ∨ s.loader.configFault = true ∨
    s.ind.addressClash = true ∨ s.clock.latch = true ∨ s.queue.commFail = true ∨
    (∃ k, (s.entry k).wired = true ∧ (s.entry k).trouble = true) ∨ s.zone.busTrouble = true ∨
    s.queue.queueOverflow = true) ∧
  State.reset.IndSound ∧
  (∀ (c : Instr) (s t : State), s.IndSound → (∀ image, c = .configReadDone image → s.ind.last = none) →
    exec c s = .next t → t.IndSound) ∧
  (∀ (image : BitVec 416) (s t : State), s.Unstarted → s.loader.inReset = false → s.loader.reading = true →
    exec (.configReadDone image) s = .next t →
    (s.address ≠ 0 → t.ind.freshMark = true ∧ t.ind.last = some t.reported ∧
      ∃ x ∈ t.rbc.slots, x.marker = .state ∧ x.frame.fresh = true) ∧
    (s.address = 0 → t.ind.freshMark = false ∧ t.rbc.owes .state = false)) ∧
  (∀ (c : Instr) (s t : State) (x : Slot), exec c s = .next t → x ∈ t.rbc.slots → x.marker = .state →
    (∀ y ∈ s.rbc.slots, y.marker ≠ .state) →
    x.frame = stateFrame t.address t.ind.freshMark t.faults t.queue.records.length
      (t.queue.records.filter Record.isCarried).length (t.view.entries.mapLines fun _ e => e.summary) ∧
    x.unacked = 0 ∧ t.ind.last = some t.reported ∧ t.ind.stateOwed = false)

/-! ### The timers of the Carry Unit, the Indication Unit and the Clock Unit -/

/-- OFFER_WINDOW_EXPIRY ends the offer unanswered: its record, next offered 60 s later, is given back to WAITING; at a
station that cannot dial an attempt is counted too; one whose attempts reach M sets the comm-fail indicator, and of
class 3 to 6 it leaves the queue with a comm NEW event of class 4 but where it is itself of source 96, while one of
class 0 to 2 stays, with that event where the indicator was clear (R10, R36, R38, R148). That the attempt is counted and
checked against M before the join of R25, so that a record which leaves takes in no WAITING one of its report, is the
model's reading: R148 does not order the two (log entry 10). ACCEPT_PENDING_TIMEOUT ends the accept-pending marker, and
its ACCEPT is owed no more unless it is on the wire (R93, R155). STATE_SPACING_EXPIRY ends the spacing, and a STATE that
waited for it is owed (R175). -/
def Obligations.UnitTimersComplete : Prop :=
  (∀ (s : State) (r : Record) (o : OwnPart) (key : Nat), s.queue.Sound → s.carry.offer = some ⟨o.seq, key, .window⟩ →
     s.queue.findSeq o.seq = some r → r.kind = .own o →
     ∃ t, exec .offerWindowExpiry s = .next t ∧ (∀ o', t.carry.offer = some o' → o'.phase = .owed) ∧
       (s.cannotDial = false → State.Settled { s with
         carry := { s.carry with offer := none }
         queue := (s.queue.modify r.order fun x => { x with
           kind := .own { o with nextOffer := s.time + 60 } }).giveBack s.time r.order } t) ∧
       (s.cannotDial = true → min 15 (r.attempts + 1) < s.loader.settings.maxAttempts →
         State.Settled { s with
           carry := { s.carry with offer := none }
           queue := (s.queue.modify r.order fun x => { x with
             kind := .own { o with nextOffer := s.time + 60 }
             attempts := min 15 (r.attempts + 1) }).giveBack s.time r.order } t) ∧
       (s.cannotDial = true → s.loader.settings.maxAttempts ≤ min 15 (r.attempts + 1) →
         let gone := ({ s.queue with commFail := true } : AlertQueue).depart s.time r.order
         let back := (({ s.queue with commFail := true } : AlertQueue).modify r.order fun x => { x with
           kind := .own { o with nextOffer := s.time + 60 }
           attempts := min 15 (r.attempts + 1) }).giveBack s.time r.order
         (3 ≤ r.cls → (∀ x ∈ t.queue.records, x.order ≠ r.order) ∧ State.Settled { s with
           carry := { s.carry with offer := none }
           queue := if s.loader.configFault = false ∧ r.source ≠ 96 then
             gone.admitEvent s.time ⟨96, .comm, .new, 4⟩ else gone } t) ∧
         (r.cls ≤ 2 → State.Settled { s with
           carry := { s.carry with offer := none }
           queue := if s.loader.configFault = false ∧ s.queue.commFail = false then
             back.admitEvent s.time ⟨96, .comm, .new, 4⟩ else back } t))) ∧
  (∀ (s : State) (a : AcceptPending), s.carry.accept = some a →
    ∃ t, exec .acceptPendingTimeout s = .next t ∧ t.carry.accept = none ∧ State.Settled s t ∧ t.queue = s.queue ∧
      t.call = s.call ∧ t.view = s.view ∧ t.clock = s.clock ∧ t.carry.offer = s.carry.offer ∧
      (s.rbc.sendingSlot = none → t.rbc.owes (.accept a.origin a.seq a.value) = false)) ∧
  (∀ s : State, s.ind.spacing = true →
    ∃ t, exec .stateSpacingExpiry s = .next t ∧
      State.FramesOnly { s with ind := { s.ind with spacing := false } } t ∧
      (s.ind.stateOwed = true → s.address ≠ 0 → t.rbc.owes .state = true))

/-- The fast clock. WARM_TIME_REACHED with the oscillator within 1 % of 3.579545 MHz, and OSCILLATOR_STEADY after it:
the clock is ACTIVE and fast-ready reported, which takes a claim that is ready to SEIZE (R126, R161, R162).
FAST_CLOCK_FAIL: QUIET with the latch set; a claim in CLAIM is abandoned to IDLE, its RELEASE owed if its CLAIM has
ended on the bus (R115, R163), in solo mode too, which is the model's reading (log entry 22); in IDLE nothing is
abandoned, and in HANGUP, where R115 says that it does not arise, that the hold runs on is the model's choice (log entry
32). FAST_CLOCK_RELEASE: the clock is QUIET and the detector's class NONE (R121, R164). -/
def Obligations.FastClockCompletes : Prop :=
  (∀ (s : State) (hertz : Nat) (c : Instr), s.LineSound → s.clock.state = .warming →
    (c = .warmTimeReached hertz ∧ s.clock.warmTimer = .running ∧ 354374955 ≤ 100 * hertz ∧ 100 * hertz ≤ 361534045) ∨
      (c = .oscillatorSteady ∧ s.clock.warmTimer = .passed) →
    ∃ t, exec c s = .next t ∧ { t with call := s.call, clock := s.clock } = s ∧
      t.clock = { s.clock with state := .active, warmTimer := .absent, steady := true } ∧
      (s.call.state = .idle → t.call = s.call) ∧
      (s.call.state ≠ .idle → s.call.state ≠ .claim ∨ s.call.guardDone = false →
        t.call = { s.call with fastReady := true }) ∧
      (∀ k, s.call.state = .claim → s.call.guardDone = true → s.call.line = some k →
        t.call.state = .seize ∧ t.call.seize.get k = true ∧ t.call.hook.get k = !(s.entry k).barge)) ∧
  (∀ (s : State) (hertz : Nat), s.clock.state = .warming → s.clock.warmTimer = .running →
    100 * hertz < 354374955 ∨ 361534045 < 100 * hertz →
    exec (.warmTimeReached hertz) s = .next { s with clock := { s.clock with warmTimer := .passed, steady := false } }) ∧
  (∀ s : State, s.clock.state = .warming → s.clock.warmTimer ≠ .passed →
    exec .oscillatorSteady s = .next { s with clock := { s.clock with steady := true } }) ∧
  (∀ s : State, s.LineSound → s.clock.state = .warming →
    ∃ t, exec .fastClockFail s = .next t ∧
      t.clock = { s.clock with
        state := .quiet
        latch := true
        warmTimer := .absent
        steady := false
        releaseTimer := decide (s.call.state = .claim) || s.clock.releaseTimer } ∧
      (s.call.state ≠ .claim → State.Settled { s with clock := t.clock } t) ∧
      (∀ k, s.call.state = .claim → s.call.line = some k →
        t.call = CallEngine.idle ∧ (t.entry k).own = false ∧ t.queue.NoneInCall ∧
        ((s.entry k).ownGuard ≠ .absent → t.rbc.owes (.release k .abandoned) = true) ∧
        ((s.entry k).ownGuard = .absent → ∀ reason,
          t.rbc.owes (.release k reason) = s.rbc.owes (.release k reason)))) ∧
  (∀ s : State, s.clock.releaseTimer = true →
    (s.clock.state = .active → exec .fastClockRelease s = .next { s with
      clock := { s.clock with state := .quiet, releaseTimer := false, steady := false }
      tone := { s.tone with cls := .none } }) ∧
    (s.clock.state ≠ .active → exec .fastClockRelease s = .next { s with
      clock := { s.clock with releaseTimer := false } }))

/-! ### The call -/

/-- The call goes forward. BARGE_CLEARING_END closes HOOK; DIAL_TONE_JUDGED clears F, recomputes the trouble flags, so
that a line that leaves trouble with it raises its CLEARED event, and dials the lead's number, the second only where
its index says so and there is one (R9, R69, R70); DIGIT_END dials on, into HANDSHAKE after the last digit;
HANDSHAKE_JUDGED starts the settle; SETTLE_END, BETWEEN_MESSAGES_END and a KISSOFF_WAIT_EXPIRY below four sends send
the record in hand, in a block of fifteen symbols: account, class, qualifier, source, repeat, relay digit, sequence
number modulo 100, each its own at an own record and the origin's at a carried one, and the check digit over them
(R52, R178, Table 11-4); SEND_END starts the kiss-off wait (R127 to R136). -/
def Obligations.CallGoesForward : Prop :=
  (∀ (account : BitVec 24) (r : Record),
    let text := fun (a : BitVec 24) (relay seq : Nat) =>
      ([0, 1, 2, 3, 4, 5].map fun i => a.toNat / 16 ^ (5 - i) % 16) ++
        [r.cls, (match r.qualifier with
          | .new => 10
          | .cleared => 11
          | .test => 12), r.source / 10, r.source % 10, r.rep, relay, seq % 100 / 10, seq % 10]
    (∀ o, r.kind = .own o →
      r.block account = text account 0 o.seq.toNat ++ [checkDigit (text account 0 o.seq.toNat)]) ∧
    (∀ c, r.kind = .carried c →
      r.block account = text c.account 1 c.originSeq.toNat ++ [checkDigit (text c.account 1 c.originSeq.toNat)])) ∧
  (∀ (s : State) (k : LineId), s.call.line = some k → s.call.state = .seize → s.call.timer = some .bargeClearing →
    exec .bargeClearingEnd s = .next { s with call := { s.call with
      hook := s.call.hook.set k true
      timer := some .dialToneWait
      lineLost := decide ((s.entry k).sense = some .noBattery) } }) ∧
  (∀ (s : State) (k : LineId) (r : Record) (digits : List DialDigit), s.call.line = some k → s.call.state = .seize →
    s.call.timer = some .dialToneWait → s.tone.cls = .dial → s.callLead = some r →
    digits = (if r.second = true ∧ s.loader.settings.number2 ≠ [] then s.loader.settings.number2
      else s.loader.settings.number1) → digits ≠ [] →
    let troubled := fun j => (s.entry j).wired = true ∧
      (s.loader.settings.lineThreshold ≤ (if j = k then 0 else (s.entry j).failures) ∨ (s.entry j).dead = true)
    ∃ t, exec .dialToneJudged s = .next t ∧ (t.entry k).failures = 0 ∧
      (∀ j, (t.entry j).trouble = true ↔ troubled j) ∧
      (∀ j, { t.entry j with
        trouble := (s.entry j).trouble
        failures := (s.entry j).failures } = s.entry j) ∧
      (∀ j, j ≠ k → (t.entry j).failures = (s.entry j).failures) ∧
      (s.loader.configFault = false → (s.entry k).trouble = true → ¬ troubled k →
        (∀ j, j ≠ k → ((s.entry j).trouble = true ↔ troubled j)) →
        t.queue.SameButStates (s.queue.admitEvent s.time ⟨90 + k.index, .line, .cleared, 5⟩)) ∧
      ((∀ j, (s.entry j).trouble = true ↔ troubled j) → t.queue.SameButStates s.queue) ∧
      t.call = { s.call with state := .dial, timer := some .digit, digits := digits } ∧
      (∀ d rest, digits = .digit d :: rest → t.tone = { s.tone with cls := .none } ∧ t.atx = (dtmfTones d).toList) ∧
      (∀ rest, digits = .pause :: rest → t.tone = s.tone ∧ t.atx = []) ∧
      t.loader = s.loader ∧ t.time = s.time ∧ t.zone = s.zone ∧ t.clock = s.clock) ∧
  (∀ s : State, s.call.state = .dial → s.call.timer = some .digit →
    (s.call.digits.tail = [] → exec .digitEnd s = .next { s with
      call := { s.call with state := .handshake, timer := some .handshakeWait, digits := [] }
      tone := { s.tone with busyCycles := 0, dialHalf := false } }) ∧
    (∀ rest, s.call.digits.tail = .pause :: rest →
      exec .digitEnd s = .next { s with call := { s.call with digits := .pause :: rest } }) ∧
    (∀ d rest, s.call.digits.tail = .digit d :: rest → exec .digitEnd s = .next { s with
      call := { s.call with digits := .digit d :: rest }
      tone := { s.tone with cls := .none } })) ∧
  (∀ s : State, s.call.state = .handshake → s.call.timer = some .handshakeWait → s.tone.cls = .handshake →
    exec .handshakeJudged s = .next { s with call := { s.call with timer := some .settle } }) ∧
  (∀ (s : State) (r : Record) (c : Instr), s.callInHand = some r →
    (c = .settleEnd ∧ s.call.state = .handshake ∧ s.call.timer = some .settle) ∨
      (c = .betweenMessagesEnd ∧ s.call.state = .kissoff ∧ s.call.timer = some .betweenMessages) ∨
      (c = .kissoffWaitExpiry ∧ s.call.state = .kissoff ∧ s.call.timer = some .kissoffWait ∧ s.call.sends < 4) →
    exec c s = .next { s with
      call := { s.call with
        state := .send
        sends := s.call.sends + 1
        timer := some .symbols
        block := r.block s.loader.settings.account }
      tone := { s.tone with cls := .none } }) ∧
  (∀ s : State, s.call.state = .send → s.call.timer = some .symbols →
    exec .sendEnd s = .next { s with call := { s.call with
      state := .kissoff
      timer := some .kissoffWait
      block := [] } })

/-- The tone detector. TONE_CLASS_CHANGE and TONE_GAP_LIMIT set the class now heard, in the silence after a tone too,
where it stands into the next state; in HANDSHAKE a period of DIAL and one of NONE, each of 200 ms to 600 ms, make one
busy cycle, and any other period takes the count back to 0. BUSY_PERIOD_LIMIT takes it to 0, and so does the report of
BUSY_CADENCE, which is not read in the settle (R121, R122, R123, R132). That the count is kept in HANDSHAKE alone is
the model's choice (log entry 16). While the generator sends a tone the class is NONE, whatever is heard (R121); that
a class taken in a silence stands until the next report where the next tone follows in the same report block is the
model's choice (log entry 18). -/
def Obligations.TonesAreHeard : Prop :=
  (∀ (s : State) (audio : List Nat) (ms : Nat) (silent : Bool) (c : Instr) (next : ToneClass), s.hearing = true →
    (c = .toneClassChange audio ms silent ∧ next = (if s.atx ≠ [] ∧ silent = false then .none else toneClass audio) ∧
        next ≠ s.tone.cls) ∨
      (c = .toneGapLimit ms ∧ next = .none ∧ s.tone.cls ≠ .none) →
    ∃ t, exec c s = .next t ∧ { t with tone := s.tone } = s ∧ t.tone.cls = next ∧
      (s.call.state ≠ .handshake → t.tone = { s.tone with cls := next }) ∧
      (s.call.state = .handshake → ms < 200 ∨ 600 < ms ∨ s.tone.cls = .handshake ∨ s.tone.cls = .kissoff ∨
          next = .handshake ∨ next = .kissoff → t.tone.busyCycles = 0 ∧ t.tone.dialHalf = false) ∧
      (s.call.state = .handshake → 200 ≤ ms → ms ≤ 600 → s.tone.cls = .dial → next = .none →
        t.tone = { s.tone with cls := .none, dialHalf := true }) ∧
      (s.call.state = .handshake → 200 ≤ ms → ms ≤ 600 → s.tone.cls = .none → next = .dial →
        t.tone = ⟨.dial, if s.tone.dialHalf then min 3 (s.tone.busyCycles + 1) else s.tone.busyCycles, false⟩)) ∧
  (∀ s : State, s.call.state = .handshake → s.tone.cls = .dial ∨ s.tone.cls = .none →
    exec .busyPeriodLimit s = .next { s with tone := { s.tone with busyCycles := 0, dialHalf := false } }) ∧
  (∀ s : State, s.call.state = .handshake → s.call.timer = some .settle → s.tone.busyCycles = 3 →
    exec .busyCadence s = .next { s with tone := { s.tone with busyCycles := 0 } }) ∧
  (∀ (s : State) (audio : List Nat) (ms : Nat), s.atx ≠ [] →
    (s.tone.cls = .none →
      exec (.toneClassChange audio ms false) s = .next s ∧ exec (.toneGapLimit ms) s = .next s) ∧
    (s.hearing = true → ∃ t, exec (.toneClassChange audio ms false) s = .next t ∧ t.tone.cls = .none)) ∧
  (∀ (c : Instr) (s t : State), (∀ audio ms, c ≠ .toneClassChange audio ms true) →
    (s.atx ≠ [] → s.tone.cls = .none) → exec c s = .next t → t.atx ≠ [] → t.tone.cls = .none)

/-- KISSOFF_JUDGED delivers the record in hand: it leaves the queue, the comm-fail indicator clears, with the comm
CLEARED event of class 5 where it was set, and the origin of a carried record that is no orphan is owed an OUTCOME
DELIVERED; the queue is else as it was. With yield-pending set the call then hangs up PREEMPTED; else, below six in
the batch, the first WAITING record is next in hand after the between-messages interval; else the call is DONE; both
hang-ups count nothing, and owe their RELEASE outside solo mode alone (R10, R24, R34, R38, R113, R134, R135, R139,
R143). -/
def Obligations.KissoffDelivers : Prop :=
  ∀ (s : State) (r : Record) (k : LineId), s.queue.Sound → s.callInHand = some r → s.call.line = some k →
    s.call.state = .kissoff → s.call.timer = some .kissoffWait → s.tone.cls = .kissoff → s.call.batch < 6 →
    let gone := s.queue.deliver s.time r
    let told := if s.queue.commFail = true ∧ s.loader.configFault = false then
      gone.admitEvent s.time ⟨96, .comm, .cleared, 5⟩ else gone
    let delivered : State := { s with
      queue := told
      carry := match r.kind with
        | .carried c => if c.orphaned then s.carry else s.carry.addOutcome c.origin c.originSeq .delivered
        | .own _ => s.carry
      call := { s.call with inHand := none, batch := s.call.batch + 1, timer := none } }
    let left := told.records.filter Record.waiting
    ∃ t, exec .kissoffJudged s = .next t ∧ t.queue.commFail = false ∧ (∀ x ∈ t.queue.records, x.order ≠ r.order) ∧
      (∀ c, r.kind = .carried c → c.orphaned = false →
        ∃ e ∈ t.carry.outcomes, e.origin = c.origin ∧ e.seq = c.originSeq ∧ e.result = .delivered) ∧
      ((∀ x ∈ s.queue.records, x.state = .inCall → x = r) → s.FlagsRight → t.queue.SameButStates told) ∧
      (s.call.yieldPending = true → State.HungUp k .preempted delivered t) ∧
      (∀ next, s.call.yieldPending = false → s.call.batch < 5 → firstOf s.time left = some next →
        { next with state := .inCall } ∈ t.queue.records ∧ t.tone = s.tone ∧
        t.call = { s.call with
          batch := s.call.batch + 1
          inHand := some next.order
          sends := 0
          timer := some .betweenMessages }) ∧
      (s.call.yieldPending = false → s.call.batch = 5 ∨ left = [] → State.HungUp k .done delivered t)

/-- The five ways a call fails: no dial tone, the line lost, the centre busy before the handshake, no handshake, no
kiss-off after four sends. Each hangs up with its outcome: the outputs released, F up by one to at most 7 after the
first two, every trouble flag set exactly where a wired line's F is at T_line or the line is dead, the line's NEW
event of class 4 admitted where the flag is newly set, the RELEASE owed outside solo mode and none in it (R9, R68,
R70, R113, R122, R128, R129, R132, R136, R139, R143). -/
def Obligations.CallsHangUp : Prop :=
  ∀ (s : State) (k : LineId), s.call.line = some k →
    (s.call.state = .seize → s.call.timer = some .dialToneWait →
      ∃ t, exec .dialToneWaitExpiry s = .next t ∧ State.HungUp k .noDialTone s t) ∧
    (s.call.lineLost = true → ∃ t, exec .lineLostTimerExpiry s = .next t ∧ State.HungUp k .lineLost s t) ∧
    (s.call.state = .handshake → s.call.timer = some .handshakeWait → s.tone.busyCycles = 3 →
      ∃ t, exec .busyCadence s = .next t ∧
        State.HungUp k .centreBusy { s with tone := { s.tone with busyCycles := 0 } } t) ∧
    (s.call.state = .handshake → s.call.timer = some .handshakeWait →
      ∃ t, exec .handshakeWaitExpiry s = .next t ∧ State.HungUp k .noHandshake s t) ∧
    (s.call.state = .kissoff → s.call.timer = some .kissoffWait → 4 ≤ s.call.sends → s.callInHand.isSome = true →
      ∃ t, exec .kissoffWaitExpiry s = .next t ∧ State.HungUp k .noKissoff s t)

/-- What a failed call counts against its record, with no other record IN_CALL. A line-caused failure, NO_DIAL_TONE or
LINE_LOST, holds the lead back 5 s and counts nothing else against it; with the lead delivered no record takes a
not-before time (R51, R141). A centre-caused one, CENTRE_BUSY, NO_HANDSHAKE or NO_KISSOFF, raises the attempts of the
record in hand, lead or not, turns its number index, and sets its not-before time: 15 s on at one or two attempts, 45
s at three or four, 90 s at more, and 7 s, 22 s and 45 s for class 0 and 1; a record of class 0 to 2 stays, an own one
at M with the comm-fail indicator set, and a comm NEW event of class 4 where it was clear, and so does one of class 3
to 6 below M (R10, R36, R37, R38, R50, R142, Table 3-7). At M one of class 3 to 6 leaves: an own one with the
indicator set, and that event but where the record is itself of source 96 (R10, R36), a carried one with an OUTCOME
RETURNED owed to its origin, unless it is an orphan, and the indicator as it was (R37). Stated where the record joins
no WAITING one of its report (R25); of the whole queue, where the failure moves no trouble flag; of the record alone,
where it is of no condition whose event the failure may raise, and, of class 5 or 6, stands in a queue with room for
those events (R31). -/
def Obligations.FailuresAreCounted : Prop :=
  (∀ (s : State) (k : LineId) (r : Record) (c : Instr), s.queue.Sound → s.call.line = some k →
    s.callInHand = some r → r.state = .inCall → (∀ x ∈ s.queue.records, x.state = .inCall → x = r) →
    (3 ≤ r.cls → ∀ x ∈ s.queue.records, x ≠ r → x.waiting = true → r.sameReport x = false) → s.FlagsRight →
    s.loader.configFault = false →
    (c = .busyCadence ∧ s.call.state = .handshake ∧ s.call.timer = some .handshakeWait ∧ s.tone.busyCycles = 3) ∨
      (c = .handshakeWaitExpiry ∧ s.call.state = .handshake ∧ s.call.timer = some .handshakeWait) ∨
      (c = .kissoffWaitExpiry ∧ s.call.state = .kissoff ∧ s.call.timer = some .kissoffWait ∧ 4 ≤ s.call.sends) →
    let n := min 15 (r.attempts + 1)
    let last := decide (s.loader.settings.maxAttempts ≤ n)
    let gap := if r.cls ≤ 1 then (if n ≤ 2 then 7 else if n ≤ 4 then 22 else 45)
      else if n ≤ 2 then 15 else if n ≤ 4 then 45 else 90
    let counted : AlertQueue := { s.queue with commFail := s.queue.commFail || r.isOwn && last }
    let stays : AlertQueue := { counted with records := s.queue.records.map fun x => if x = r then { r with
      attempts := n
      second := !r.second
      notBefore := s.time + gap
      state := .waiting } else x }
    let leaves := counted.depart s.time r.order
    ∃ t, exec c s = .next t ∧
      (r.cls ≤ 2 ∨ last = false → t.queue.SameButStates (
        if r.isOwn = true ∧ last = true ∧ s.queue.commFail = false then stays.admitEvent s.time ⟨96, .comm, .new, 4⟩
        else stays)) ∧
      (3 ≤ r.cls → last = true → t.queue.SameButStates (
        if r.isOwn = true ∧ r.source ≠ 96 then leaves.admitEvent s.time ⟨96, .comm, .new, 4⟩ else leaves))) ∧
  ∀ (s : State) (k : LineId) (r : Record) (c : Instr), s.queue.Sound → s.call.line = some k →
    (∀ x ∈ s.queue.records, x.state = .inCall → x = r) →
    (3 ≤ r.cls → ∀ x ∈ s.queue.records, x ≠ r → x.waiting = true → r.sameReport x = false) →
    (∀ o, r.kind = .own o → o.condition ∉ [.line, .comm, .overflow]) → (r.cls ≤ 4 ∨ s.queue.count ≤ 19) →
    ((c = .dialToneWaitExpiry ∧ s.call.state = .seize ∧ s.call.timer = some .dialToneWait) ∨
        (c = .lineLostTimerExpiry ∧ s.call.lineLost = true) →
      ∃ t, exec c s = .next t ∧
        (s.callLead = some r →
          ∃ x ∈ t.queue.records, x.still = { r with notBefore := s.time + 5, state := .waiting }) ∧
        (s.callLead = none → ∀ x ∈ t.queue.records, s.queue.admissions ≤ x.order ∨
          ∃ y ∈ s.queue.records, y.order = x.order ∧ y.notBefore = x.notBefore ∧ y.attempts = x.attempts)) ∧
    ((c = .busyCadence ∧ s.call.state = .handshake ∧ s.call.timer = some .handshakeWait ∧ s.tone.busyCycles = 3) ∨
        (c = .handshakeWaitExpiry ∧ s.call.state = .handshake ∧ s.call.timer = some .handshakeWait) ∨
        (c = .kissoffWaitExpiry ∧ s.call.state = .kissoff ∧ s.call.timer = some .kissoffWait ∧ 4 ≤ s.call.sends) →
      s.callInHand = some r →
      let last := s.loader.settings.maxAttempts ≤ min 15 (r.attempts + 1)
      ∃ t, exec c s = .next t ∧
        (r.cls ≤ 2 ∨ ¬ last →
          t.carry.outcomes.map OutcomeEntry.still = s.carry.outcomes.map OutcomeEntry.still ∧
          ∃ x ∈ t.queue.records, x.still = { r with
            attempts := min 15 (r.attempts + 1)
            second := !r.second
            notBefore := s.time + retryGap (min 15 (r.attempts + 1)) r.cls
            state := .waiting }) ∧
        (∀ o, r.kind = .own o → t.queue.commFail = (s.queue.commFail || decide last)) ∧
        (∀ p, r.kind = .carried p → t.queue.commFail = s.queue.commFail) ∧
        (3 ≤ r.cls → last →
          (∀ x ∈ t.queue.records, x.order ≠ r.order) ∧
          (∀ p, r.kind = .carried p →
            (p.orphaned = false → ∃ e ∈ t.carry.outcomes, e.still = ⟨p.origin, p.originSeq, .returned, false⟩) ∧
            (p.orphaned = true → t.carry.outcomes.map OutcomeEntry.still = s.carry.outcomes.map OutcomeEntry.still))))

/-- The candidate line for a lead: of the FREE lines not in trouble, else, for class 0 to 3, of the OFFICE lines not
in trouble, else of the FREE lines in trouble, the one of the lowest score, of equals the lowest in number; else,
outside solo mode, of the PEER lines whose pending claim's key, or else holder's, is of a class at least two above the
lead's, the one of the highest such key, of equals the lowest in number (R48, R59, R99, Table 6-1). HANG_UP_HOLD_END
clears the own fields and the OBJECT not yet sent, every other frame owed or in a slot as it was, and the engine
enters IDLE with the release timer running; with no lead it stays IDLE, and where a lead has a line to be had, and no
record is due for an offer, the next claim is placed at once (R66, R93, R100, R108, R113, R140, R164). -/
def Obligations.HangUpHoldEndCompletes : Prop :=
  (∀ (v : Four Entry) (solo : Bool) (cls : Nat) (k : LineId) (tier : Tier),
    let sensed := fun j => (v.get j).wired = true ∧ (v.get j).own = false ∧ (v.get j).dead = false ∧
      (v.get j).sense ≠ none
    let unclaimed := fun j => sensed j ∧ (v.get j).holder = none ∧ (v.get j).pending = none
    let free := fun j => unclaimed j ∧ (v.get j).sense ≠ some .offHook ∧ (v.get j).trouble = false
    let office := fun j => unclaimed j ∧ (v.get j).sense = some .offHook ∧ (v.get j).trouble = false ∧ cls ≤ 3
    let troubled := fun j => unclaimed j ∧ (v.get j).sense ≠ some .offHook ∧ (v.get j).trouble = true
    let displaces := fun j key => sensed j ∧ solo = false ∧ cls + 2 ≤ key / 1024 ∧
      ((∃ p, (v.get j).pending = some p ∧ p.key = key) ∨
        (v.get j).pending = none ∧ ∃ h, (v.get j).holder = some h ∧ h.key = key)
    let score := fun j => min 63 (8 * (v.get j).failures + (v.get j).occupancy / 4)
    let best := fun p : LineId → Prop => p k ∧ ∀ j, p j → score k < score j ∨ score k = score j ∧ k.index ≤ j.index
    let empty := fun p : LineId → Prop => ∀ j, ¬ p j
    (candidate v solo cls = some (k, tier) ↔
      (tier = .free ∧ best free) ∨ (tier = .office ∧ empty free ∧ best office) ∨
      (tier = .troubled ∧ empty free ∧ empty office ∧ best troubled) ∨
      (tier = (if (v.get k).pending = none then .overHolder else .overPending) ∧ empty free ∧ empty office ∧
        empty troubled ∧ ∃ key, displaces k key ∧
          ∀ j other, displaces j other → other < key ∨ other = key ∧ k.index ≤ j.index)) ∧
    (candidate v solo cls = none ↔
      empty free ∧ empty office ∧ empty troubled ∧ ∀ j key, ¬ displaces j key)) ∧
  ∀ (s : State) (k : LineId), s.call.line = some k → s.call.state = .hangup → s.call.timer = some .hold →
    let made : State := { s with
      call := CallEngine.idle
      view := { s.view with entries := s.view.entries.set k (s.entry k).others }
      clock := { s.clock with releaseTimer := true }
      rbc := { s.rbc with
        owed := s.rbc.owed.filter fun m => decide (m ≠ .object k)
        slots := (s.rbc.slots.filter fun x => decide (x.marker ≠ .object k) || x.sending).map fun x =>
          if x.marker = .object k then { x with abort := true } else x } }
    ∃ t, exec .hangUpHoldEnd s = .next t ∧ State.Settled made t ∧
      (s.rbc.sendingSlot = none → t.rbc.owes (.object k) = false) ∧
      (s.lead = none → t.call = CallEngine.idle ∧ t.clock = made.clock ∧ t.view = made.view) ∧
      (∀ r j tier, s.queue.Sound → s.loader.configFault = false → s.offerable = none → s.lead = some r →
        candidate made.view.entries s.solo r.cls = some (j, tier) → State.Placed r j tier made t)
end

