-- ==== Sys2Proof/Laws/State.lean ====
section
/-! SUPPORT. For each shared operation, the fields of State it leaves as they were: one lemma per field, for `simp`. -/

namespace Sys2Proof.Machine

variable (s : State)

/-! `raise` changes queue. -/

@[simp] theorem State.raise_loader (e : Event) : (s.raise e).loader = s.loader := by
  unfold State.raise; (repeat' split) <;> simp
@[simp] theorem State.raise_time (e : Event) : (s.raise e).time = s.time := by
  unfold State.raise; (repeat' split) <;> simp
@[simp] theorem State.raise_zone (e : Event) : (s.raise e).zone = s.zone := by
  unfold State.raise; (repeat' split) <;> simp
@[simp] theorem State.raise_view (e : Event) : (s.raise e).view = s.view := by
  unfold State.raise; (repeat' split) <;> simp
@[simp] theorem State.raise_rbc (e : Event) : (s.raise e).rbc = s.rbc := by
  unfold State.raise; (repeat' split) <;> simp
@[simp] theorem State.raise_call (e : Event) : (s.raise e).call = s.call := by
  unfold State.raise; (repeat' split) <;> simp
@[simp] theorem State.raise_tone (e : Event) : (s.raise e).tone = s.tone := by
  unfold State.raise; (repeat' split) <;> simp
@[simp] theorem State.raise_carry (e : Event) : (s.raise e).carry = s.carry := by
  unfold State.raise; (repeat' split) <;> simp
@[simp] theorem State.raise_clock (e : Event) : (s.raise e).clock = s.clock := by
  unfold State.raise; (repeat' split) <;> simp
@[simp] theorem State.raise_ind (e : Event) : (s.raise e).ind = s.ind := by
  unfold State.raise; (repeat' split) <;> simp
@[simp] theorem State.raise_free (e : Event) : (s.raise e).free = s.free := by
  unfold State.raise; (repeat' split) <;> simp
@[simp] theorem State.raise_pending (e : Event) : (s.raise e).pending = s.pending := by
  unfold State.raise; (repeat' split) <;> simp

/-! `raiseAll` changes queue. -/

@[simp] theorem State.raiseAll_loader (events : List Event) : (s.raiseAll events).loader = s.loader := by
  unfold State.raiseAll
  induction events generalizing s with
  | nil => rfl
  | cons e rest ih => simp [ih]
@[simp] theorem State.raiseAll_time (events : List Event) : (s.raiseAll events).time = s.time := by
  unfold State.raiseAll
  induction events generalizing s with
  | nil => rfl
  | cons e rest ih => simp [ih]
@[simp] theorem State.raiseAll_zone (events : List Event) : (s.raiseAll events).zone = s.zone := by
  unfold State.raiseAll
  induction events generalizing s with
  | nil => rfl
  | cons e rest ih => simp [ih]
@[simp] theorem State.raiseAll_view (events : List Event) : (s.raiseAll events).view = s.view := by
  unfold State.raiseAll
  induction events generalizing s with
  | nil => rfl
  | cons e rest ih => simp [ih]
@[simp] theorem State.raiseAll_rbc (events : List Event) : (s.raiseAll events).rbc = s.rbc := by
  unfold State.raiseAll
  induction events generalizing s with
  | nil => rfl
  | cons e rest ih => simp [ih]
@[simp] theorem State.raiseAll_call (events : List Event) : (s.raiseAll events).call = s.call := by
  unfold State.raiseAll
  induction events generalizing s with
  | nil => rfl
  | cons e rest ih => simp [ih]
@[simp] theorem State.raiseAll_tone (events : List Event) : (s.raiseAll events).tone = s.tone := by
  unfold State.raiseAll
  induction events generalizing s with
  | nil => rfl
  | cons e rest ih => simp [ih]
@[simp] theorem State.raiseAll_carry (events : List Event) : (s.raiseAll events).carry = s.carry := by
  unfold State.raiseAll
  induction events generalizing s with
  | nil => rfl
  | cons e rest ih => simp [ih]
@[simp] theorem State.raiseAll_clock (events : List Event) : (s.raiseAll events).clock = s.clock := by
  unfold State.raiseAll
  induction events generalizing s with
  | nil => rfl
  | cons e rest ih => simp [ih]
@[simp] theorem State.raiseAll_ind (events : List Event) : (s.raiseAll events).ind = s.ind := by
  unfold State.raiseAll
  induction events generalizing s with
  | nil => rfl
  | cons e rest ih => simp [ih]
@[simp] theorem State.raiseAll_free (events : List Event) : (s.raiseAll events).free = s.free := by
  unfold State.raiseAll
  induction events generalizing s with
  | nil => rfl
  | cons e rest ih => simp [ih]
@[simp] theorem State.raiseAll_pending (events : List Event) : (s.raiseAll events).pending = s.pending := by
  unfold State.raiseAll
  induction events generalizing s with
  | nil => rfl
  | cons e rest ih => simp [ih]

/-! `refreshTrouble` changes queue, view, free. -/

@[simp] theorem State.refreshTrouble_loader : (s.refreshTrouble).loader = s.loader := by simp [State.refreshTrouble]
@[simp] theorem State.refreshTrouble_time : (s.refreshTrouble).time = s.time := by simp [State.refreshTrouble]
@[simp] theorem State.refreshTrouble_zone : (s.refreshTrouble).zone = s.zone := by simp [State.refreshTrouble]
@[simp] theorem State.refreshTrouble_rbc : (s.refreshTrouble).rbc = s.rbc := by simp [State.refreshTrouble]
@[simp] theorem State.refreshTrouble_call : (s.refreshTrouble).call = s.call := by simp [State.refreshTrouble]
@[simp] theorem State.refreshTrouble_tone : (s.refreshTrouble).tone = s.tone := by simp [State.refreshTrouble]
@[simp] theorem State.refreshTrouble_carry : (s.refreshTrouble).carry = s.carry := by simp [State.refreshTrouble]
@[simp] theorem State.refreshTrouble_clock : (s.refreshTrouble).clock = s.clock := by simp [State.refreshTrouble]
@[simp] theorem State.refreshTrouble_ind : (s.refreshTrouble).ind = s.ind := by simp [State.refreshTrouble]
@[simp] theorem State.refreshTrouble_pending : (s.refreshTrouble).pending = s.pending := by simp [State.refreshTrouble]

/-! `abortMatching` changes rbc, carry. -/

@[simp] theorem State.abortMatching_loader (p : Marker → Bool) : (s.abortMatching p).loader = s.loader := rfl
@[simp] theorem State.abortMatching_time (p : Marker → Bool) : (s.abortMatching p).time = s.time := rfl
@[simp] theorem State.abortMatching_zone (p : Marker → Bool) : (s.abortMatching p).zone = s.zone := rfl
@[simp] theorem State.abortMatching_queue (p : Marker → Bool) : (s.abortMatching p).queue = s.queue := rfl
@[simp] theorem State.abortMatching_view (p : Marker → Bool) : (s.abortMatching p).view = s.view := rfl
@[simp] theorem State.abortMatching_call (p : Marker → Bool) : (s.abortMatching p).call = s.call := rfl
@[simp] theorem State.abortMatching_tone (p : Marker → Bool) : (s.abortMatching p).tone = s.tone := rfl
@[simp] theorem State.abortMatching_clock (p : Marker → Bool) : (s.abortMatching p).clock = s.clock := rfl
@[simp] theorem State.abortMatching_ind (p : Marker → Bool) : (s.abortMatching p).ind = s.ind := rfl
@[simp] theorem State.abortMatching_free (p : Marker → Bool) : (s.abortMatching p).free = s.free := rfl
@[simp] theorem State.abortMatching_pending (p : Marker → Bool) : (s.abortMatching p).pending = s.pending := rfl

/-! `cancel` changes rbc, carry. -/

@[simp] theorem State.cancel_loader (p : Marker → Bool) : (s.cancel p).loader = s.loader := rfl
@[simp] theorem State.cancel_time (p : Marker → Bool) : (s.cancel p).time = s.time := rfl
@[simp] theorem State.cancel_zone (p : Marker → Bool) : (s.cancel p).zone = s.zone := rfl
@[simp] theorem State.cancel_queue (p : Marker → Bool) : (s.cancel p).queue = s.queue := rfl
@[simp] theorem State.cancel_view (p : Marker → Bool) : (s.cancel p).view = s.view := rfl
@[simp] theorem State.cancel_call (p : Marker → Bool) : (s.cancel p).call = s.call := rfl
@[simp] theorem State.cancel_tone (p : Marker → Bool) : (s.cancel p).tone = s.tone := rfl
@[simp] theorem State.cancel_clock (p : Marker → Bool) : (s.cancel p).clock = s.clock := rfl
@[simp] theorem State.cancel_ind (p : Marker → Bool) : (s.cancel p).ind = s.ind := rfl
@[simp] theorem State.cancel_free (p : Marker → Bool) : (s.cancel p).free = s.free := rfl
@[simp] theorem State.cancel_pending (p : Marker → Bool) : (s.cancel p).pending = s.pending := rfl

/-! `endAttempt` changes rbc, carry. -/

@[simp] theorem State.endAttempt_loader (unacked : Nat) : (s.endAttempt unacked).loader = s.loader := by
  unfold State.endAttempt; (repeat' split) <;> simp
@[simp] theorem State.endAttempt_time (unacked : Nat) : (s.endAttempt unacked).time = s.time := by
  unfold State.endAttempt; (repeat' split) <;> simp
@[simp] theorem State.endAttempt_zone (unacked : Nat) : (s.endAttempt unacked).zone = s.zone := by
  unfold State.endAttempt; (repeat' split) <;> simp
@[simp] theorem State.endAttempt_queue (unacked : Nat) : (s.endAttempt unacked).queue = s.queue := by
  unfold State.endAttempt; (repeat' split) <;> simp
@[simp] theorem State.endAttempt_view (unacked : Nat) : (s.endAttempt unacked).view = s.view := by
  unfold State.endAttempt; (repeat' split) <;> simp
@[simp] theorem State.endAttempt_call (unacked : Nat) : (s.endAttempt unacked).call = s.call := by
  unfold State.endAttempt; (repeat' split) <;> simp
@[simp] theorem State.endAttempt_tone (unacked : Nat) : (s.endAttempt unacked).tone = s.tone := by
  unfold State.endAttempt; (repeat' split) <;> simp
@[simp] theorem State.endAttempt_clock (unacked : Nat) : (s.endAttempt unacked).clock = s.clock := by
  unfold State.endAttempt; (repeat' split) <;> simp
@[simp] theorem State.endAttempt_ind (unacked : Nat) : (s.endAttempt unacked).ind = s.ind := by
  unfold State.endAttempt; (repeat' split) <;> simp
@[simp] theorem State.endAttempt_free (unacked : Nat) : (s.endAttempt unacked).free = s.free := by
  unfold State.endAttempt; (repeat' split) <;> simp
@[simp] theorem State.endAttempt_pending (unacked : Nat) : (s.endAttempt unacked).pending = s.pending := by
  unfold State.endAttempt; (repeat' split) <;> simp

/-! `oweRelease` changes rbc. -/

@[simp] theorem State.oweRelease_loader (k : LineId) (reason : Reason) : (s.oweRelease k reason).loader = s.loader := rfl
@[simp] theorem State.oweRelease_time (k : LineId) (reason : Reason) : (s.oweRelease k reason).time = s.time := rfl
@[simp] theorem State.oweRelease_zone (k : LineId) (reason : Reason) : (s.oweRelease k reason).zone = s.zone := rfl
@[simp] theorem State.oweRelease_queue (k : LineId) (reason : Reason) : (s.oweRelease k reason).queue = s.queue := rfl
@[simp] theorem State.oweRelease_view (k : LineId) (reason : Reason) : (s.oweRelease k reason).view = s.view := rfl
@[simp] theorem State.oweRelease_call (k : LineId) (reason : Reason) : (s.oweRelease k reason).call = s.call := rfl
@[simp] theorem State.oweRelease_tone (k : LineId) (reason : Reason) : (s.oweRelease k reason).tone = s.tone := rfl
@[simp] theorem State.oweRelease_carry (k : LineId) (reason : Reason) : (s.oweRelease k reason).carry = s.carry := rfl
@[simp] theorem State.oweRelease_clock (k : LineId) (reason : Reason) : (s.oweRelease k reason).clock = s.clock := rfl
@[simp] theorem State.oweRelease_ind (k : LineId) (reason : Reason) : (s.oweRelease k reason).ind = s.ind := rfl
@[simp] theorem State.oweRelease_free (k : LineId) (reason : Reason) : (s.oweRelease k reason).free = s.free := rfl
@[simp] theorem State.oweRelease_pending (k : LineId) (reason : Reason) : (s.oweRelease k reason).pending = s.pending := rfl

/-! `oweObject` changes rbc. -/

@[simp] theorem State.oweObject_loader (k : LineId) : (s.oweObject k).loader = s.loader := by
  unfold State.oweObject; (repeat' split) <;> simp
@[simp] theorem State.oweObject_time (k : LineId) : (s.oweObject k).time = s.time := by
  unfold State.oweObject; (repeat' split) <;> simp
@[simp] theorem State.oweObject_zone (k : LineId) : (s.oweObject k).zone = s.zone := by
  unfold State.oweObject; (repeat' split) <;> simp
@[simp] theorem State.oweObject_queue (k : LineId) : (s.oweObject k).queue = s.queue := by
  unfold State.oweObject; (repeat' split) <;> simp
@[simp] theorem State.oweObject_view (k : LineId) : (s.oweObject k).view = s.view := by
  unfold State.oweObject; (repeat' split) <;> simp
@[simp] theorem State.oweObject_call (k : LineId) : (s.oweObject k).call = s.call := by
  unfold State.oweObject; (repeat' split) <;> simp
@[simp] theorem State.oweObject_tone (k : LineId) : (s.oweObject k).tone = s.tone := by
  unfold State.oweObject; (repeat' split) <;> simp
@[simp] theorem State.oweObject_carry (k : LineId) : (s.oweObject k).carry = s.carry := by
  unfold State.oweObject; (repeat' split) <;> simp
@[simp] theorem State.oweObject_clock (k : LineId) : (s.oweObject k).clock = s.clock := by
  unfold State.oweObject; (repeat' split) <;> simp
@[simp] theorem State.oweObject_ind (k : LineId) : (s.oweObject k).ind = s.ind := by
  unfold State.oweObject; (repeat' split) <;> simp
@[simp] theorem State.oweObject_free (k : LineId) : (s.oweObject k).free = s.free := by
  unfold State.oweObject; (repeat' split) <;> simp
@[simp] theorem State.oweObject_pending (k : LineId) : (s.oweObject k).pending = s.pending := by
  unfold State.oweObject; (repeat' split) <;> simp

/-! `closeHook` changes call. -/

@[simp] theorem State.closeHook_loader (k : LineId) : (s.closeHook k).loader = s.loader := rfl
@[simp] theorem State.closeHook_time (k : LineId) : (s.closeHook k).time = s.time := rfl
@[simp] theorem State.closeHook_zone (k : LineId) : (s.closeHook k).zone = s.zone := rfl
@[simp] theorem State.closeHook_queue (k : LineId) : (s.closeHook k).queue = s.queue := rfl
@[simp] theorem State.closeHook_view (k : LineId) : (s.closeHook k).view = s.view := rfl
@[simp] theorem State.closeHook_rbc (k : LineId) : (s.closeHook k).rbc = s.rbc := rfl
@[simp] theorem State.closeHook_tone (k : LineId) : (s.closeHook k).tone = s.tone := rfl
@[simp] theorem State.closeHook_carry (k : LineId) : (s.closeHook k).carry = s.carry := rfl
@[simp] theorem State.closeHook_clock (k : LineId) : (s.closeHook k).clock = s.clock := rfl
@[simp] theorem State.closeHook_ind (k : LineId) : (s.closeHook k).ind = s.ind := rfl
@[simp] theorem State.closeHook_free (k : LineId) : (s.closeHook k).free = s.free := rfl
@[simp] theorem State.closeHook_pending (k : LineId) : (s.closeHook k).pending = s.pending := rfl

/-! `enterSeize` changes call. -/

@[simp] theorem State.enterSeize_loader (k : LineId) : (s.enterSeize k).loader = s.loader := by
  unfold State.enterSeize; (repeat' split) <;> simp
@[simp] theorem State.enterSeize_time (k : LineId) : (s.enterSeize k).time = s.time := by
  unfold State.enterSeize; (repeat' split) <;> simp
@[simp] theorem State.enterSeize_zone (k : LineId) : (s.enterSeize k).zone = s.zone := by
  unfold State.enterSeize; (repeat' split) <;> simp
@[simp] theorem State.enterSeize_queue (k : LineId) : (s.enterSeize k).queue = s.queue := by
  unfold State.enterSeize; (repeat' split) <;> simp
@[simp] theorem State.enterSeize_view (k : LineId) : (s.enterSeize k).view = s.view := by
  unfold State.enterSeize; (repeat' split) <;> simp
@[simp] theorem State.enterSeize_rbc (k : LineId) : (s.enterSeize k).rbc = s.rbc := by
  unfold State.enterSeize; (repeat' split) <;> simp
@[simp] theorem State.enterSeize_tone (k : LineId) : (s.enterSeize k).tone = s.tone := by
  unfold State.enterSeize; (repeat' split) <;> simp
@[simp] theorem State.enterSeize_carry (k : LineId) : (s.enterSeize k).carry = s.carry := by
  unfold State.enterSeize; (repeat' split) <;> simp
@[simp] theorem State.enterSeize_clock (k : LineId) : (s.enterSeize k).clock = s.clock := by
  unfold State.enterSeize; (repeat' split) <;> simp
@[simp] theorem State.enterSeize_ind (k : LineId) : (s.enterSeize k).ind = s.ind := by
  unfold State.enterSeize; (repeat' split) <;> simp
@[simp] theorem State.enterSeize_free (k : LineId) : (s.enterSeize k).free = s.free := by
  unfold State.enterSeize; (repeat' split) <;> simp
@[simp] theorem State.enterSeize_pending (k : LineId) : (s.enterSeize k).pending = s.pending := by
  unfold State.enterSeize; (repeat' split) <;> simp

/-! `trySeize` changes call. -/

@[simp] theorem State.trySeize_loader : (s.trySeize).loader = s.loader := by
  unfold State.trySeize; (repeat' split) <;> simp
@[simp] theorem State.trySeize_time : (s.trySeize).time = s.time := by
  unfold State.trySeize; (repeat' split) <;> simp
@[simp] theorem State.trySeize_zone : (s.trySeize).zone = s.zone := by
  unfold State.trySeize; (repeat' split) <;> simp
@[simp] theorem State.trySeize_queue : (s.trySeize).queue = s.queue := by
  unfold State.trySeize; (repeat' split) <;> simp
@[simp] theorem State.trySeize_view : (s.trySeize).view = s.view := by
  unfold State.trySeize; (repeat' split) <;> simp
@[simp] theorem State.trySeize_rbc : (s.trySeize).rbc = s.rbc := by
  unfold State.trySeize; (repeat' split) <;> simp
@[simp] theorem State.trySeize_tone : (s.trySeize).tone = s.tone := by
  unfold State.trySeize; (repeat' split) <;> simp
@[simp] theorem State.trySeize_carry : (s.trySeize).carry = s.carry := by
  unfold State.trySeize; (repeat' split) <;> simp
@[simp] theorem State.trySeize_clock : (s.trySeize).clock = s.clock := by
  unfold State.trySeize; (repeat' split) <;> simp
@[simp] theorem State.trySeize_ind : (s.trySeize).ind = s.ind := by
  unfold State.trySeize; (repeat' split) <;> simp
@[simp] theorem State.trySeize_free : (s.trySeize).free = s.free := by
  unfold State.trySeize; (repeat' split) <;> simp
@[simp] theorem State.trySeize_pending : (s.trySeize).pending = s.pending := by
  unfold State.trySeize; (repeat' split) <;> simp

/-! `reportGuardDone` changes call. -/

@[simp] theorem State.reportGuardDone_loader : (s.reportGuardDone).loader = s.loader := by
  unfold State.reportGuardDone; (repeat' split) <;> simp
@[simp] theorem State.reportGuardDone_time : (s.reportGuardDone).time = s.time := by
  unfold State.reportGuardDone; (repeat' split) <;> simp
@[simp] theorem State.reportGuardDone_zone : (s.reportGuardDone).zone = s.zone := by
  unfold State.reportGuardDone; (repeat' split) <;> simp
@[simp] theorem State.reportGuardDone_queue : (s.reportGuardDone).queue = s.queue := by
  unfold State.reportGuardDone; (repeat' split) <;> simp
@[simp] theorem State.reportGuardDone_view : (s.reportGuardDone).view = s.view := by
  unfold State.reportGuardDone; (repeat' split) <;> simp
@[simp] theorem State.reportGuardDone_rbc : (s.reportGuardDone).rbc = s.rbc := by
  unfold State.reportGuardDone; (repeat' split) <;> simp
@[simp] theorem State.reportGuardDone_tone : (s.reportGuardDone).tone = s.tone := by
  unfold State.reportGuardDone; (repeat' split) <;> simp
@[simp] theorem State.reportGuardDone_carry : (s.reportGuardDone).carry = s.carry := by
  unfold State.reportGuardDone; (repeat' split) <;> simp
@[simp] theorem State.reportGuardDone_clock : (s.reportGuardDone).clock = s.clock := by
  unfold State.reportGuardDone; (repeat' split) <;> simp
@[simp] theorem State.reportGuardDone_ind : (s.reportGuardDone).ind = s.ind := by
  unfold State.reportGuardDone; (repeat' split) <;> simp
@[simp] theorem State.reportGuardDone_free : (s.reportGuardDone).free = s.free := by
  unfold State.reportGuardDone; (repeat' split) <;> simp
@[simp] theorem State.reportGuardDone_pending : (s.reportGuardDone).pending = s.pending := by
  unfold State.reportGuardDone; (repeat' split) <;> simp

/-! `reportFastReady` changes call. -/

@[simp] theorem State.reportFastReady_loader : (s.reportFastReady).loader = s.loader := by
  unfold State.reportFastReady; (repeat' split) <;> simp
@[simp] theorem State.reportFastReady_time : (s.reportFastReady).time = s.time := by
  unfold State.reportFastReady; (repeat' split) <;> simp
@[simp] theorem State.reportFastReady_zone : (s.reportFastReady).zone = s.zone := by
  unfold State.reportFastReady; (repeat' split) <;> simp
@[simp] theorem State.reportFastReady_queue : (s.reportFastReady).queue = s.queue := by
  unfold State.reportFastReady; (repeat' split) <;> simp
@[simp] theorem State.reportFastReady_view : (s.reportFastReady).view = s.view := by
  unfold State.reportFastReady; (repeat' split) <;> simp
@[simp] theorem State.reportFastReady_rbc : (s.reportFastReady).rbc = s.rbc := by
  unfold State.reportFastReady; (repeat' split) <;> simp
@[simp] theorem State.reportFastReady_tone : (s.reportFastReady).tone = s.tone := by
  unfold State.reportFastReady; (repeat' split) <;> simp
@[simp] theorem State.reportFastReady_carry : (s.reportFastReady).carry = s.carry := by
  unfold State.reportFastReady; (repeat' split) <;> simp
@[simp] theorem State.reportFastReady_clock : (s.reportFastReady).clock = s.clock := by
  unfold State.reportFastReady; (repeat' split) <;> simp
@[simp] theorem State.reportFastReady_ind : (s.reportFastReady).ind = s.ind := by
  unfold State.reportFastReady; (repeat' split) <;> simp
@[simp] theorem State.reportFastReady_free : (s.reportFastReady).free = s.free := by
  unfold State.reportFastReady; (repeat' split) <;> simp
@[simp] theorem State.reportFastReady_pending : (s.reportFastReady).pending = s.pending := by
  unfold State.reportFastReady; (repeat' split) <;> simp

/-! `requestClock` changes call, clock. -/

@[simp] theorem State.requestClock_loader : (s.requestClock).loader = s.loader := by
  unfold State.requestClock; (repeat' split) <;> simp
@[simp] theorem State.requestClock_time : (s.requestClock).time = s.time := by
  unfold State.requestClock; (repeat' split) <;> simp
@[simp] theorem State.requestClock_zone : (s.requestClock).zone = s.zone := by
  unfold State.requestClock; (repeat' split) <;> simp
@[simp] theorem State.requestClock_queue : (s.requestClock).queue = s.queue := by
  unfold State.requestClock; (repeat' split) <;> simp
@[simp] theorem State.requestClock_view : (s.requestClock).view = s.view := by
  unfold State.requestClock; (repeat' split) <;> simp
@[simp] theorem State.requestClock_rbc : (s.requestClock).rbc = s.rbc := by
  unfold State.requestClock; (repeat' split) <;> simp
@[simp] theorem State.requestClock_tone : (s.requestClock).tone = s.tone := by
  unfold State.requestClock; (repeat' split) <;> simp
@[simp] theorem State.requestClock_carry : (s.requestClock).carry = s.carry := by
  unfold State.requestClock; (repeat' split) <;> simp
@[simp] theorem State.requestClock_ind : (s.requestClock).ind = s.ind := by
  unfold State.requestClock; (repeat' split) <;> simp
@[simp] theorem State.requestClock_free : (s.requestClock).free = s.free := by
  unfold State.requestClock; (repeat' split) <;> simp
@[simp] theorem State.requestClock_pending : (s.requestClock).pending = s.pending := by
  unfold State.requestClock; (repeat' split) <;> simp

/-! `holderGone` changes view, call. -/

@[simp] theorem State.holderGone_loader (k : LineId) : (s.holderGone k).loader = s.loader := by
  unfold State.holderGone; (repeat' split) <;> simp
@[simp] theorem State.holderGone_time (k : LineId) : (s.holderGone k).time = s.time := by
  unfold State.holderGone; (repeat' split) <;> simp
@[simp] theorem State.holderGone_zone (k : LineId) : (s.holderGone k).zone = s.zone := by
  unfold State.holderGone; (repeat' split) <;> simp
@[simp] theorem State.holderGone_queue (k : LineId) : (s.holderGone k).queue = s.queue := by
  unfold State.holderGone; (repeat' split) <;> simp
@[simp] theorem State.holderGone_rbc (k : LineId) : (s.holderGone k).rbc = s.rbc := by
  unfold State.holderGone; (repeat' split) <;> simp
@[simp] theorem State.holderGone_tone (k : LineId) : (s.holderGone k).tone = s.tone := by
  unfold State.holderGone; (repeat' split) <;> simp
@[simp] theorem State.holderGone_carry (k : LineId) : (s.holderGone k).carry = s.carry := by
  unfold State.holderGone; (repeat' split) <;> simp
@[simp] theorem State.holderGone_clock (k : LineId) : (s.holderGone k).clock = s.clock := by
  unfold State.holderGone; (repeat' split) <;> simp
@[simp] theorem State.holderGone_ind (k : LineId) : (s.holderGone k).ind = s.ind := by
  unfold State.holderGone; (repeat' split) <;> simp
@[simp] theorem State.holderGone_free (k : LineId) : (s.holderGone k).free = s.free := by
  unfold State.holderGone; (repeat' split) <;> simp
@[simp] theorem State.holderGone_pending (k : LineId) : (s.holderGone k).pending = s.pending := by
  unfold State.holderGone; (repeat' split) <;> simp

/-! `placeOn` changes view, call, rbc. -/

@[simp] theorem State.placeOn_loader (k : LineId) (tier : Tier) (r : Record) : (s.placeOn k tier r).loader = s.loader := rfl
@[simp] theorem State.placeOn_time (k : LineId) (tier : Tier) (r : Record) : (s.placeOn k tier r).time = s.time := rfl
@[simp] theorem State.placeOn_zone (k : LineId) (tier : Tier) (r : Record) : (s.placeOn k tier r).zone = s.zone := rfl
@[simp] theorem State.placeOn_queue (k : LineId) (tier : Tier) (r : Record) : (s.placeOn k tier r).queue = s.queue := rfl
@[simp] theorem State.placeOn_tone (k : LineId) (tier : Tier) (r : Record) : (s.placeOn k tier r).tone = s.tone := rfl
@[simp] theorem State.placeOn_carry (k : LineId) (tier : Tier) (r : Record) : (s.placeOn k tier r).carry = s.carry := rfl
@[simp] theorem State.placeOn_clock (k : LineId) (tier : Tier) (r : Record) : (s.placeOn k tier r).clock = s.clock := rfl
@[simp] theorem State.placeOn_ind (k : LineId) (tier : Tier) (r : Record) : (s.placeOn k tier r).ind = s.ind := rfl
@[simp] theorem State.placeOn_free (k : LineId) (tier : Tier) (r : Record) : (s.placeOn k tier r).free = s.free := rfl
@[simp] theorem State.placeOn_pending (k : LineId) (tier : Tier) (r : Record) : (s.placeOn k tier r).pending = s.pending := rfl

/-! `startCall` changes queue, view, call, rbc, clock. -/

@[simp] theorem State.startCall_loader (r : Record) (k : LineId) (tier : Tier) : (s.startCall r k tier).loader = s.loader := by simp [State.startCall]
@[simp] theorem State.startCall_time (r : Record) (k : LineId) (tier : Tier) : (s.startCall r k tier).time = s.time := by simp [State.startCall]
@[simp] theorem State.startCall_zone (r : Record) (k : LineId) (tier : Tier) : (s.startCall r k tier).zone = s.zone := by simp [State.startCall]
@[simp] theorem State.startCall_tone (r : Record) (k : LineId) (tier : Tier) : (s.startCall r k tier).tone = s.tone := by simp [State.startCall]
@[simp] theorem State.startCall_carry (r : Record) (k : LineId) (tier : Tier) : (s.startCall r k tier).carry = s.carry := by simp [State.startCall]
@[simp] theorem State.startCall_ind (r : Record) (k : LineId) (tier : Tier) : (s.startCall r k tier).ind = s.ind := by simp [State.startCall]
@[simp] theorem State.startCall_free (r : Record) (k : LineId) (tier : Tier) : (s.startCall r k tier).free = s.free := by simp [State.startCall]
@[simp] theorem State.startCall_pending (r : Record) (k : LineId) (tier : Tier) : (s.startCall r k tier).pending = s.pending := by simp [State.startCall]

/-! `choose` changes queue, view, call, rbc, clock. -/

@[simp] theorem State.choose_loader : (s.choose).loader = s.loader := by
  unfold State.choose; (repeat' split) <;> simp
@[simp] theorem State.choose_time : (s.choose).time = s.time := by
  unfold State.choose; (repeat' split) <;> simp
@[simp] theorem State.choose_zone : (s.choose).zone = s.zone := by
  unfold State.choose; (repeat' split) <;> simp
@[simp] theorem State.choose_tone : (s.choose).tone = s.tone := by
  unfold State.choose; (repeat' split) <;> simp
@[simp] theorem State.choose_carry : (s.choose).carry = s.carry := by
  unfold State.choose; (repeat' split) <;> simp
@[simp] theorem State.choose_ind : (s.choose).ind = s.ind := by
  unfold State.choose; (repeat' split) <;> simp
@[simp] theorem State.choose_free : (s.choose).free = s.free := by
  unfold State.choose; (repeat' split) <;> simp
@[simp] theorem State.choose_pending : (s.choose).pending = s.pending := by
  unfold State.choose; (repeat' split) <;> simp

/-! `enterIdle` changes call, clock. -/

@[simp] theorem State.enterIdle_loader : (s.enterIdle).loader = s.loader := rfl
@[simp] theorem State.enterIdle_time : (s.enterIdle).time = s.time := rfl
@[simp] theorem State.enterIdle_zone : (s.enterIdle).zone = s.zone := rfl
@[simp] theorem State.enterIdle_queue : (s.enterIdle).queue = s.queue := rfl
@[simp] theorem State.enterIdle_view : (s.enterIdle).view = s.view := rfl
@[simp] theorem State.enterIdle_rbc : (s.enterIdle).rbc = s.rbc := rfl
@[simp] theorem State.enterIdle_tone : (s.enterIdle).tone = s.tone := rfl
@[simp] theorem State.enterIdle_carry : (s.enterIdle).carry = s.carry := rfl
@[simp] theorem State.enterIdle_ind : (s.enterIdle).ind = s.ind := rfl
@[simp] theorem State.enterIdle_free : (s.enterIdle).free = s.free := rfl
@[simp] theorem State.enterIdle_pending : (s.enterIdle).pending = s.pending := rfl

/-! `clearOwnFields` changes view, rbc, carry. -/

@[simp] theorem State.clearOwnFields_loader (k : LineId) : (s.clearOwnFields k).loader = s.loader := by simp [State.clearOwnFields]
@[simp] theorem State.clearOwnFields_time (k : LineId) : (s.clearOwnFields k).time = s.time := by simp [State.clearOwnFields]
@[simp] theorem State.clearOwnFields_zone (k : LineId) : (s.clearOwnFields k).zone = s.zone := by simp [State.clearOwnFields]
@[simp] theorem State.clearOwnFields_queue (k : LineId) : (s.clearOwnFields k).queue = s.queue := by simp [State.clearOwnFields]
@[simp] theorem State.clearOwnFields_call (k : LineId) : (s.clearOwnFields k).call = s.call := by simp [State.clearOwnFields]
@[simp] theorem State.clearOwnFields_tone (k : LineId) : (s.clearOwnFields k).tone = s.tone := by simp [State.clearOwnFields]
@[simp] theorem State.clearOwnFields_clock (k : LineId) : (s.clearOwnFields k).clock = s.clock := by simp [State.clearOwnFields]
@[simp] theorem State.clearOwnFields_ind (k : LineId) : (s.clearOwnFields k).ind = s.ind := by simp [State.clearOwnFields]
@[simp] theorem State.clearOwnFields_free (k : LineId) : (s.clearOwnFields k).free = s.free := by simp [State.clearOwnFields]
@[simp] theorem State.clearOwnFields_pending (k : LineId) : (s.clearOwnFields k).pending = s.pending := by simp [State.clearOwnFields]

/-! `dropClaim` changes call, view, rbc, carry. -/

@[simp] theorem State.dropClaim_loader (k : LineId) : (s.dropClaim k).loader = s.loader := by simp [State.dropClaim]
@[simp] theorem State.dropClaim_time (k : LineId) : (s.dropClaim k).time = s.time := by simp [State.dropClaim]
@[simp] theorem State.dropClaim_zone (k : LineId) : (s.dropClaim k).zone = s.zone := by simp [State.dropClaim]
@[simp] theorem State.dropClaim_queue (k : LineId) : (s.dropClaim k).queue = s.queue := by simp [State.dropClaim]
@[simp] theorem State.dropClaim_tone (k : LineId) : (s.dropClaim k).tone = s.tone := by simp [State.dropClaim]
@[simp] theorem State.dropClaim_clock (k : LineId) : (s.dropClaim k).clock = s.clock := by simp [State.dropClaim]
@[simp] theorem State.dropClaim_ind (k : LineId) : (s.dropClaim k).ind = s.ind := by simp [State.dropClaim]
@[simp] theorem State.dropClaim_free (k : LineId) : (s.dropClaim k).free = s.free := by simp [State.dropClaim]
@[simp] theorem State.dropClaim_pending (k : LineId) : (s.dropClaim k).pending = s.pending := by simp [State.dropClaim]

/-! `giveUpCall` changes queue, call, clock. -/

@[simp] theorem State.giveUpCall_loader : (s.giveUpCall).loader = s.loader := by simp [State.giveUpCall]
@[simp] theorem State.giveUpCall_time : (s.giveUpCall).time = s.time := by simp [State.giveUpCall]
@[simp] theorem State.giveUpCall_zone : (s.giveUpCall).zone = s.zone := by simp [State.giveUpCall]
@[simp] theorem State.giveUpCall_view : (s.giveUpCall).view = s.view := by simp [State.giveUpCall]
@[simp] theorem State.giveUpCall_rbc : (s.giveUpCall).rbc = s.rbc := by simp [State.giveUpCall]
@[simp] theorem State.giveUpCall_tone : (s.giveUpCall).tone = s.tone := by simp [State.giveUpCall]
@[simp] theorem State.giveUpCall_carry : (s.giveUpCall).carry = s.carry := by simp [State.giveUpCall]
@[simp] theorem State.giveUpCall_ind : (s.giveUpCall).ind = s.ind := by simp [State.giveUpCall]
@[simp] theorem State.giveUpCall_free : (s.giveUpCall).free = s.free := by simp [State.giveUpCall]
@[simp] theorem State.giveUpCall_pending : (s.giveUpCall).pending = s.pending := by simp [State.giveUpCall]

/-! `rechoose` changes queue, call, clock, view, rbc. -/

@[simp] theorem State.rechoose_loader : (s.rechoose).loader = s.loader := by
  unfold State.rechoose; (repeat' split) <;> simp
@[simp] theorem State.rechoose_time : (s.rechoose).time = s.time := by
  unfold State.rechoose; (repeat' split) <;> simp
@[simp] theorem State.rechoose_zone : (s.rechoose).zone = s.zone := by
  unfold State.rechoose; (repeat' split) <;> simp
@[simp] theorem State.rechoose_tone : (s.rechoose).tone = s.tone := by
  unfold State.rechoose; (repeat' split) <;> simp
@[simp] theorem State.rechoose_carry : (s.rechoose).carry = s.carry := by
  unfold State.rechoose; (repeat' split) <;> simp
@[simp] theorem State.rechoose_ind : (s.rechoose).ind = s.ind := by
  unfold State.rechoose; (repeat' split) <;> simp
@[simp] theorem State.rechoose_free : (s.rechoose).free = s.free := by
  unfold State.rechoose; (repeat' split) <;> simp
@[simp] theorem State.rechoose_pending : (s.rechoose).pending = s.pending := by
  unfold State.rechoose; (repeat' split) <;> simp

/-! `abandonInClaim` changes queue, call, clock, view, rbc, carry. -/

@[simp] theorem State.abandonInClaim_loader (k : LineId) : (s.abandonInClaim k).loader = s.loader := by simp [State.abandonInClaim]
@[simp] theorem State.abandonInClaim_time (k : LineId) : (s.abandonInClaim k).time = s.time := by simp [State.abandonInClaim]
@[simp] theorem State.abandonInClaim_zone (k : LineId) : (s.abandonInClaim k).zone = s.zone := by simp [State.abandonInClaim]
@[simp] theorem State.abandonInClaim_tone (k : LineId) : (s.abandonInClaim k).tone = s.tone := by simp [State.abandonInClaim]
@[simp] theorem State.abandonInClaim_ind (k : LineId) : (s.abandonInClaim k).ind = s.ind := by simp [State.abandonInClaim]
@[simp] theorem State.abandonInClaim_free (k : LineId) : (s.abandonInClaim k).free = s.free := by simp [State.abandonInClaim]
@[simp] theorem State.abandonInClaim_pending (k : LineId) : (s.abandonInClaim k).pending = s.pending := by simp [State.abandonInClaim]

/-! `accountLine` changes view, queue. -/

@[simp] theorem State.accountLine_loader (k : LineId) : (s.accountLine k).loader = s.loader := rfl
@[simp] theorem State.accountLine_time (k : LineId) : (s.accountLine k).time = s.time := rfl
@[simp] theorem State.accountLine_zone (k : LineId) : (s.accountLine k).zone = s.zone := rfl
@[simp] theorem State.accountLine_rbc (k : LineId) : (s.accountLine k).rbc = s.rbc := rfl
@[simp] theorem State.accountLine_call (k : LineId) : (s.accountLine k).call = s.call := rfl
@[simp] theorem State.accountLine_tone (k : LineId) : (s.accountLine k).tone = s.tone := rfl
@[simp] theorem State.accountLine_carry (k : LineId) : (s.accountLine k).carry = s.carry := rfl
@[simp] theorem State.accountLine_clock (k : LineId) : (s.accountLine k).clock = s.clock := rfl
@[simp] theorem State.accountLine_ind (k : LineId) : (s.accountLine k).ind = s.ind := rfl
@[simp] theorem State.accountLine_free (k : LineId) : (s.accountLine k).free = s.free := rfl
@[simp] theorem State.accountLine_pending (k : LineId) : (s.accountLine k).pending = s.pending := rfl

/-! `releaseLine` changes call, tone. -/

@[simp] theorem State.releaseLine_loader (o : CallOutcome) : (s.releaseLine o).loader = s.loader := rfl
@[simp] theorem State.releaseLine_time (o : CallOutcome) : (s.releaseLine o).time = s.time := rfl
@[simp] theorem State.releaseLine_zone (o : CallOutcome) : (s.releaseLine o).zone = s.zone := rfl
@[simp] theorem State.releaseLine_queue (o : CallOutcome) : (s.releaseLine o).queue = s.queue := rfl
@[simp] theorem State.releaseLine_view (o : CallOutcome) : (s.releaseLine o).view = s.view := rfl
@[simp] theorem State.releaseLine_rbc (o : CallOutcome) : (s.releaseLine o).rbc = s.rbc := rfl
@[simp] theorem State.releaseLine_carry (o : CallOutcome) : (s.releaseLine o).carry = s.carry := rfl
@[simp] theorem State.releaseLine_clock (o : CallOutcome) : (s.releaseLine o).clock = s.clock := rfl
@[simp] theorem State.releaseLine_ind (o : CallOutcome) : (s.releaseLine o).ind = s.ind := rfl
@[simp] theorem State.releaseLine_free (o : CallOutcome) : (s.releaseLine o).free = s.free := rfl
@[simp] theorem State.releaseLine_pending (o : CallOutcome) : (s.releaseLine o).pending = s.pending := rfl

/-! `enterSend` changes call, tone. -/

@[simp] theorem State.enterSend_loader (r : Record) : (s.enterSend r).loader = s.loader := rfl
@[simp] theorem State.enterSend_time (r : Record) : (s.enterSend r).time = s.time := rfl
@[simp] theorem State.enterSend_zone (r : Record) : (s.enterSend r).zone = s.zone := rfl
@[simp] theorem State.enterSend_queue (r : Record) : (s.enterSend r).queue = s.queue := rfl
@[simp] theorem State.enterSend_view (r : Record) : (s.enterSend r).view = s.view := rfl
@[simp] theorem State.enterSend_rbc (r : Record) : (s.enterSend r).rbc = s.rbc := rfl
@[simp] theorem State.enterSend_carry (r : Record) : (s.enterSend r).carry = s.carry := rfl
@[simp] theorem State.enterSend_clock (r : Record) : (s.enterSend r).clock = s.clock := rfl
@[simp] theorem State.enterSend_ind (r : Record) : (s.enterSend r).ind = s.ind := rfl
@[simp] theorem State.enterSend_free (r : Record) : (s.enterSend r).free = s.free := rfl
@[simp] theorem State.enterSend_pending (r : Record) : (s.enterSend r).pending = s.pending := rfl

/-! `deliver` changes queue, carry. -/

@[simp] theorem State.deliver_loader (r : Record) : (s.deliver r).loader = s.loader := by
  unfold State.deliver; (repeat' split) <;> simp
@[simp] theorem State.deliver_time (r : Record) : (s.deliver r).time = s.time := by
  unfold State.deliver; (repeat' split) <;> simp
@[simp] theorem State.deliver_zone (r : Record) : (s.deliver r).zone = s.zone := by
  unfold State.deliver; (repeat' split) <;> simp
@[simp] theorem State.deliver_view (r : Record) : (s.deliver r).view = s.view := by
  unfold State.deliver; (repeat' split) <;> simp
@[simp] theorem State.deliver_rbc (r : Record) : (s.deliver r).rbc = s.rbc := by
  unfold State.deliver; (repeat' split) <;> simp
@[simp] theorem State.deliver_call (r : Record) : (s.deliver r).call = s.call := by
  unfold State.deliver; (repeat' split) <;> simp
@[simp] theorem State.deliver_tone (r : Record) : (s.deliver r).tone = s.tone := by
  unfold State.deliver; (repeat' split) <;> simp
@[simp] theorem State.deliver_clock (r : Record) : (s.deliver r).clock = s.clock := by
  unfold State.deliver; (repeat' split) <;> simp
@[simp] theorem State.deliver_ind (r : Record) : (s.deliver r).ind = s.ind := by
  unfold State.deliver; (repeat' split) <;> simp
@[simp] theorem State.deliver_free (r : Record) : (s.deliver r).free = s.free := by
  unfold State.deliver; (repeat' split) <;> simp
@[simp] theorem State.deliver_pending (r : Record) : (s.deliver r).pending = s.pending := by
  unfold State.deliver; (repeat' split) <;> simp

/-! `makeOffer` changes queue, carry, rbc. -/

@[simp] theorem State.makeOffer_loader : (s.makeOffer).loader = s.loader := by
  unfold State.makeOffer; (repeat' split) <;> simp
@[simp] theorem State.makeOffer_time : (s.makeOffer).time = s.time := by
  unfold State.makeOffer; (repeat' split) <;> simp
@[simp] theorem State.makeOffer_zone : (s.makeOffer).zone = s.zone := by
  unfold State.makeOffer; (repeat' split) <;> simp
@[simp] theorem State.makeOffer_view : (s.makeOffer).view = s.view := by
  unfold State.makeOffer; (repeat' split) <;> simp
@[simp] theorem State.makeOffer_call : (s.makeOffer).call = s.call := by
  unfold State.makeOffer; (repeat' split) <;> simp
@[simp] theorem State.makeOffer_tone : (s.makeOffer).tone = s.tone := by
  unfold State.makeOffer; (repeat' split) <;> simp
@[simp] theorem State.makeOffer_clock : (s.makeOffer).clock = s.clock := by
  unfold State.makeOffer; (repeat' split) <;> simp
@[simp] theorem State.makeOffer_ind : (s.makeOffer).ind = s.ind := by
  unfold State.makeOffer; (repeat' split) <;> simp
@[simp] theorem State.makeOffer_free : (s.makeOffer).free = s.free := by
  unfold State.makeOffer; (repeat' split) <;> simp
@[simp] theorem State.makeOffer_pending : (s.makeOffer).pending = s.pending := by
  unfold State.makeOffer; (repeat' split) <;> simp

/-! `endOffer` changes carry, rbc. -/

@[simp] theorem State.endOffer_loader : (s.endOffer).loader = s.loader := by
  unfold State.endOffer; (repeat' split) <;> simp
@[simp] theorem State.endOffer_time : (s.endOffer).time = s.time := by
  unfold State.endOffer; (repeat' split) <;> simp
@[simp] theorem State.endOffer_zone : (s.endOffer).zone = s.zone := by
  unfold State.endOffer; (repeat' split) <;> simp
@[simp] theorem State.endOffer_queue : (s.endOffer).queue = s.queue := by
  unfold State.endOffer; (repeat' split) <;> simp
@[simp] theorem State.endOffer_view : (s.endOffer).view = s.view := by
  unfold State.endOffer; (repeat' split) <;> simp
@[simp] theorem State.endOffer_call : (s.endOffer).call = s.call := by
  unfold State.endOffer; (repeat' split) <;> simp
@[simp] theorem State.endOffer_tone : (s.endOffer).tone = s.tone := by
  unfold State.endOffer; (repeat' split) <;> simp
@[simp] theorem State.endOffer_clock : (s.endOffer).clock = s.clock := by
  unfold State.endOffer; (repeat' split) <;> simp
@[simp] theorem State.endOffer_ind : (s.endOffer).ind = s.ind := by
  unfold State.endOffer; (repeat' split) <;> simp
@[simp] theorem State.endOffer_free : (s.endOffer).free = s.free := by
  unfold State.endOffer; (repeat' split) <;> simp
@[simp] theorem State.endOffer_pending : (s.endOffer).pending = s.pending := by
  unfold State.endOffer; (repeat' split) <;> simp

/-! `endAccept` changes carry, rbc. -/

@[simp] theorem State.endAccept_loader : (s.endAccept).loader = s.loader := by
  unfold State.endAccept; (repeat' split) <;> simp
@[simp] theorem State.endAccept_time : (s.endAccept).time = s.time := by
  unfold State.endAccept; (repeat' split) <;> simp
@[simp] theorem State.endAccept_zone : (s.endAccept).zone = s.zone := by
  unfold State.endAccept; (repeat' split) <;> simp
@[simp] theorem State.endAccept_queue : (s.endAccept).queue = s.queue := by
  unfold State.endAccept; (repeat' split) <;> simp
@[simp] theorem State.endAccept_view : (s.endAccept).view = s.view := by
  unfold State.endAccept; (repeat' split) <;> simp
@[simp] theorem State.endAccept_call : (s.endAccept).call = s.call := by
  unfold State.endAccept; (repeat' split) <;> simp
@[simp] theorem State.endAccept_tone : (s.endAccept).tone = s.tone := by
  unfold State.endAccept; (repeat' split) <;> simp
@[simp] theorem State.endAccept_clock : (s.endAccept).clock = s.clock := by
  unfold State.endAccept; (repeat' split) <;> simp
@[simp] theorem State.endAccept_ind : (s.endAccept).ind = s.ind := by
  unfold State.endAccept; (repeat' split) <;> simp
@[simp] theorem State.endAccept_free : (s.endAccept).free = s.free := by
  unfold State.endAccept; (repeat' split) <;> simp
@[simp] theorem State.endAccept_pending : (s.endAccept).pending = s.pending := by
  unfold State.endAccept; (repeat' split) <;> simp

/-! `dropReleases` changes rbc. -/

@[simp] theorem State.dropReleases_loader : (s.dropReleases).loader = s.loader := rfl
@[simp] theorem State.dropReleases_time : (s.dropReleases).time = s.time := rfl
@[simp] theorem State.dropReleases_zone : (s.dropReleases).zone = s.zone := rfl
@[simp] theorem State.dropReleases_queue : (s.dropReleases).queue = s.queue := rfl
@[simp] theorem State.dropReleases_view : (s.dropReleases).view = s.view := rfl
@[simp] theorem State.dropReleases_call : (s.dropReleases).call = s.call := rfl
@[simp] theorem State.dropReleases_tone : (s.dropReleases).tone = s.tone := rfl
@[simp] theorem State.dropReleases_carry : (s.dropReleases).carry = s.carry := rfl
@[simp] theorem State.dropReleases_clock : (s.dropReleases).clock = s.clock := rfl
@[simp] theorem State.dropReleases_ind : (s.dropReleases).ind = s.ind := rfl
@[simp] theorem State.dropReleases_free : (s.dropReleases).free = s.free := rfl
@[simp] theorem State.dropReleases_pending : (s.dropReleases).pending = s.pending := rfl

/-! `leaveSolo` changes zone, queue. -/

@[simp] theorem State.leaveSolo_loader : (s.leaveSolo).loader = s.loader := by
  unfold State.leaveSolo; (repeat' split) <;> simp
@[simp] theorem State.leaveSolo_time : (s.leaveSolo).time = s.time := by
  unfold State.leaveSolo; (repeat' split) <;> simp
@[simp] theorem State.leaveSolo_view : (s.leaveSolo).view = s.view := by
  unfold State.leaveSolo; (repeat' split) <;> simp
@[simp] theorem State.leaveSolo_rbc : (s.leaveSolo).rbc = s.rbc := by
  unfold State.leaveSolo; (repeat' split) <;> simp
@[simp] theorem State.leaveSolo_call : (s.leaveSolo).call = s.call := by
  unfold State.leaveSolo; (repeat' split) <;> simp
@[simp] theorem State.leaveSolo_tone : (s.leaveSolo).tone = s.tone := by
  unfold State.leaveSolo; (repeat' split) <;> simp
@[simp] theorem State.leaveSolo_carry : (s.leaveSolo).carry = s.carry := by
  unfold State.leaveSolo; (repeat' split) <;> simp
@[simp] theorem State.leaveSolo_clock : (s.leaveSolo).clock = s.clock := by
  unfold State.leaveSolo; (repeat' split) <;> simp
@[simp] theorem State.leaveSolo_ind : (s.leaveSolo).ind = s.ind := by
  unfold State.leaveSolo; (repeat' split) <;> simp
@[simp] theorem State.leaveSolo_free : (s.leaveSolo).free = s.free := by
  unfold State.leaveSolo; (repeat' split) <;> simp
@[simp] theorem State.leaveSolo_pending : (s.leaveSolo).pending = s.pending := by
  unfold State.leaveSolo; (repeat' split) <;> simp

/-! `putInSlot` changes rbc, carry, ind. -/

@[simp] theorem State.putInSlot_loader (m : Marker) (f : Frame) : (s.putInSlot m f).loader = s.loader := rfl
@[simp] theorem State.putInSlot_time (m : Marker) (f : Frame) : (s.putInSlot m f).time = s.time := rfl
@[simp] theorem State.putInSlot_zone (m : Marker) (f : Frame) : (s.putInSlot m f).zone = s.zone := rfl
@[simp] theorem State.putInSlot_queue (m : Marker) (f : Frame) : (s.putInSlot m f).queue = s.queue := rfl
@[simp] theorem State.putInSlot_view (m : Marker) (f : Frame) : (s.putInSlot m f).view = s.view := rfl
@[simp] theorem State.putInSlot_call (m : Marker) (f : Frame) : (s.putInSlot m f).call = s.call := rfl
@[simp] theorem State.putInSlot_tone (m : Marker) (f : Frame) : (s.putInSlot m f).tone = s.tone := rfl
@[simp] theorem State.putInSlot_clock (m : Marker) (f : Frame) : (s.putInSlot m f).clock = s.clock := rfl
@[simp] theorem State.putInSlot_free (m : Marker) (f : Frame) : (s.putInSlot m f).free = s.free := rfl
@[simp] theorem State.putInSlot_pending (m : Marker) (f : Frame) : (s.putInSlot m f).pending = s.pending := rfl

/-! `loadOne` changes rbc, carry, ind. -/

@[simp] theorem State.loadOne_loader : (s.loadOne).loader = s.loader := by
  unfold State.loadOne; (repeat' split) <;> simp
@[simp] theorem State.loadOne_time : (s.loadOne).time = s.time := by
  unfold State.loadOne; (repeat' split) <;> simp
@[simp] theorem State.loadOne_zone : (s.loadOne).zone = s.zone := by
  unfold State.loadOne; (repeat' split) <;> simp
@[simp] theorem State.loadOne_queue : (s.loadOne).queue = s.queue := by
  unfold State.loadOne; (repeat' split) <;> simp
@[simp] theorem State.loadOne_view : (s.loadOne).view = s.view := by
  unfold State.loadOne; (repeat' split) <;> simp
@[simp] theorem State.loadOne_call : (s.loadOne).call = s.call := by
  unfold State.loadOne; (repeat' split) <;> simp
@[simp] theorem State.loadOne_tone : (s.loadOne).tone = s.tone := by
  unfold State.loadOne; (repeat' split) <;> simp
@[simp] theorem State.loadOne_clock : (s.loadOne).clock = s.clock := by
  unfold State.loadOne; (repeat' split) <;> simp
@[simp] theorem State.loadOne_free : (s.loadOne).free = s.free := by
  unfold State.loadOne; (repeat' split) <;> simp
@[simp] theorem State.loadOne_pending : (s.loadOne).pending = s.pending := by
  unfold State.loadOne; (repeat' split) <;> simp

/-! `loadSlots` changes rbc, carry, ind. -/

@[simp] theorem State.loadSlots_loader : (s.loadSlots).loader = s.loader := by simp [State.loadSlots]
@[simp] theorem State.loadSlots_time : (s.loadSlots).time = s.time := by simp [State.loadSlots]
@[simp] theorem State.loadSlots_zone : (s.loadSlots).zone = s.zone := by simp [State.loadSlots]
@[simp] theorem State.loadSlots_queue : (s.loadSlots).queue = s.queue := by simp [State.loadSlots]
@[simp] theorem State.loadSlots_view : (s.loadSlots).view = s.view := by simp [State.loadSlots]
@[simp] theorem State.loadSlots_call : (s.loadSlots).call = s.call := by simp [State.loadSlots]
@[simp] theorem State.loadSlots_tone : (s.loadSlots).tone = s.tone := by simp [State.loadSlots]
@[simp] theorem State.loadSlots_clock : (s.loadSlots).clock = s.clock := by simp [State.loadSlots]
@[simp] theorem State.loadSlots_free : (s.loadSlots).free = s.free := by simp [State.loadSlots]
@[simp] theorem State.loadSlots_pending : (s.loadSlots).pending = s.pending := by simp [State.loadSlots]

/-! `oweState` changes rbc. -/

@[simp] theorem State.oweState_loader : (s.oweState).loader = s.loader := by
  unfold State.oweState; (repeat' split) <;> simp
@[simp] theorem State.oweState_time : (s.oweState).time = s.time := by
  unfold State.oweState; (repeat' split) <;> simp
@[simp] theorem State.oweState_zone : (s.oweState).zone = s.zone := by
  unfold State.oweState; (repeat' split) <;> simp
@[simp] theorem State.oweState_queue : (s.oweState).queue = s.queue := by
  unfold State.oweState; (repeat' split) <;> simp
@[simp] theorem State.oweState_view : (s.oweState).view = s.view := by
  unfold State.oweState; (repeat' split) <;> simp
@[simp] theorem State.oweState_call : (s.oweState).call = s.call := by
  unfold State.oweState; (repeat' split) <;> simp
@[simp] theorem State.oweState_tone : (s.oweState).tone = s.tone := by
  unfold State.oweState; (repeat' split) <;> simp
@[simp] theorem State.oweState_carry : (s.oweState).carry = s.carry := by
  unfold State.oweState; (repeat' split) <;> simp
@[simp] theorem State.oweState_clock : (s.oweState).clock = s.clock := by
  unfold State.oweState; (repeat' split) <;> simp
@[simp] theorem State.oweState_ind : (s.oweState).ind = s.ind := by
  unfold State.oweState; (repeat' split) <;> simp
@[simp] theorem State.oweState_free : (s.oweState).free = s.free := by
  unfold State.oweState; (repeat' split) <;> simp
@[simp] theorem State.oweState_pending : (s.oweState).pending = s.pending := by
  unfold State.oweState; (repeat' split) <;> simp

/-! `noteReported` changes ind. -/

@[simp] theorem State.noteReported_loader (before : State) : (State.noteReported before s).loader = s.loader := by
  unfold State.noteReported; (repeat' split) <;> simp
@[simp] theorem State.noteReported_time (before : State) : (State.noteReported before s).time = s.time := by
  unfold State.noteReported; (repeat' split) <;> simp
@[simp] theorem State.noteReported_zone (before : State) : (State.noteReported before s).zone = s.zone := by
  unfold State.noteReported; (repeat' split) <;> simp
@[simp] theorem State.noteReported_queue (before : State) : (State.noteReported before s).queue = s.queue := by
  unfold State.noteReported; (repeat' split) <;> simp
@[simp] theorem State.noteReported_view (before : State) : (State.noteReported before s).view = s.view := by
  unfold State.noteReported; (repeat' split) <;> simp
@[simp] theorem State.noteReported_rbc (before : State) : (State.noteReported before s).rbc = s.rbc := by
  unfold State.noteReported; (repeat' split) <;> simp
@[simp] theorem State.noteReported_call (before : State) : (State.noteReported before s).call = s.call := by
  unfold State.noteReported; (repeat' split) <;> simp
@[simp] theorem State.noteReported_tone (before : State) : (State.noteReported before s).tone = s.tone := by
  unfold State.noteReported; (repeat' split) <;> simp
@[simp] theorem State.noteReported_carry (before : State) : (State.noteReported before s).carry = s.carry := by
  unfold State.noteReported; (repeat' split) <;> simp
@[simp] theorem State.noteReported_clock (before : State) : (State.noteReported before s).clock = s.clock := by
  unfold State.noteReported; (repeat' split) <;> simp
@[simp] theorem State.noteReported_free (before : State) : (State.noteReported before s).free = s.free := by
  unfold State.noteReported; (repeat' split) <;> simp
@[simp] theorem State.noteReported_pending (before : State) : (State.noteReported before s).pending = s.pending := by
  unfold State.noteReported; (repeat' split) <;> simp

/-! `checkAccept` changes carry, rbc. -/

@[simp] theorem State.checkAccept_loader (before : State) : (State.checkAccept before s).loader = s.loader := by
  unfold State.checkAccept; (repeat' split) <;> simp
@[simp] theorem State.checkAccept_time (before : State) : (State.checkAccept before s).time = s.time := by
  unfold State.checkAccept; (repeat' split) <;> simp
@[simp] theorem State.checkAccept_zone (before : State) : (State.checkAccept before s).zone = s.zone := by
  unfold State.checkAccept; (repeat' split) <;> simp
@[simp] theorem State.checkAccept_queue (before : State) : (State.checkAccept before s).queue = s.queue := by
  unfold State.checkAccept; (repeat' split) <;> simp
@[simp] theorem State.checkAccept_view (before : State) : (State.checkAccept before s).view = s.view := by
  unfold State.checkAccept; (repeat' split) <;> simp
@[simp] theorem State.checkAccept_call (before : State) : (State.checkAccept before s).call = s.call := by
  unfold State.checkAccept; (repeat' split) <;> simp
@[simp] theorem State.checkAccept_tone (before : State) : (State.checkAccept before s).tone = s.tone := by
  unfold State.checkAccept; (repeat' split) <;> simp
@[simp] theorem State.checkAccept_clock (before : State) : (State.checkAccept before s).clock = s.clock := by
  unfold State.checkAccept; (repeat' split) <;> simp
@[simp] theorem State.checkAccept_ind (before : State) : (State.checkAccept before s).ind = s.ind := by
  unfold State.checkAccept; (repeat' split) <;> simp
@[simp] theorem State.checkAccept_free (before : State) : (State.checkAccept before s).free = s.free := by
  unfold State.checkAccept; (repeat' split) <;> simp
@[simp] theorem State.checkAccept_pending (before : State) : (State.checkAccept before s).pending = s.pending := by
  unfold State.checkAccept; (repeat' split) <;> simp

end Sys2Proof.Machine
end

