-- ==== Sys2Proof/Laws/Settle.lean ====
section
/-! SUPPORT. What closes a step, once and for all: `settle`, `settleChoice` and `settleFrames` leave everything that
`State.Settled` and `State.FramesOnly` name. -/

namespace Sys2Proof.Machine

/-- Records with distinct admission orders are told apart by them. -/
theorem eq_of_order {l : List Record} (hn : (l.map Record.order).Nodup) {r x : Record} (hr : r ∈ l) (hx : x ∈ l)
    (h : r.order = x.order) : r = x := List.inj_on_of_nodup_map hn hr hx h

/-! ### Small lemmas of the data -/

@[simp] theorem Four.get_const {α : Type} (a : α) (k : LineId) : (Four.const a).get k = a := by cases k <;> rfl

@[simp] theorem Four.get_set_same {α : Type} (f : Four α) (k : LineId) (a : α) : (f.set k a).get k = a := by
  cases k <;> rfl

theorem Four.get_set_other {α : Type} (f : Four α) {j k : LineId} (a : α) (h : j ≠ k) : (f.set k a).get j = f.get j := by
  cases j <;> cases k <;> first | rfl | exact absurd rfl h

@[simp] theorem Four.get_mapLines {α β : Type} (g : LineId → α → β) (f : Four α) (k : LineId) :
    (f.mapLines g).get k = g k (f.get k) := by cases k <;> rfl

theorem Four.ext_get {α : Type} {f g : Four α} (h : ∀ k, f.get k = g.get k) : f = g := by
  have h0 := h .l0; have h1 := h .l1; have h2 := h .l2; have h3 := h .l3
  cases f; cases g; simp_all [Four.get]

@[simp] theorem LineView.get_update_same (v : LineView) (k : LineId) (f : Entry → Entry) :
    (v.update k f).get k = f (v.get k) := by simp [LineView.get, LineView.update]

theorem LineView.get_update_other (v : LineView) {j k : LineId} (f : Entry → Entry) (h : j ≠ k) :
    (v.update k f).get j = v.get j := by simp [LineView.get, LineView.update, Four.get_set_other _ _ h]

/-- An entry after an update of one line. -/
theorem LineView.get_update (v : LineView) (j k : LineId) (f : Entry → Entry) :
    (v.update k f).get j = if j = k then f (v.get j) else v.get j := by
  by_cases h : j = k
  · subst h; simp
  · simp [LineView.get_update_other _ _ h, h]

@[simp] theorem LineView.allDead_update (v : LineView) (k : LineId) (f : Entry → Entry) :
    (v.update k f).allDead = v.allDead := rfl

/-! ### The outcome list but for its slots -/

theorem outcomes_slotLoaded (m : Marker) (c : CarryUnit) :
    (c.slotLoaded m).outcomes.map OutcomeEntry.still = c.outcomes.map OutcomeEntry.still := by
  unfold CarryUnit.slotLoaded
  simp only
  generalize c.outcomes = l
  induction l with
  | nil => rfl
  | cons e rest ih =>
    unfold changeFirstOutcome
    split
    · simp [OutcomeEntry.still]
    · simp [ih]

/-- The outcome list is left by the emptying of slots that hold no OUTCOME. -/
theorem foldl_slotEmptied_outcomes {l : List Slot} (c : CarryUnit)
    (h : ∀ x ∈ l, ∀ origin seq result, x.marker ≠ .outcome origin seq result) :
    l.foldl (fun c t => c.slotEmptied t.marker) c = c := by
  induction l generalizing c with
  | nil => rfl
  | cons x rest ih =>
    rw [List.foldl_cons, ih _ fun y hy => h y (List.mem_cons_of_mem _ hy)]
    have : CarryUnit.servedBy x.marker true = fun _ => false := by
      funext e
      have := h x List.mem_cons_self e.origin e.seq e.result
      simp [CarryUnit.servedBy, this]
    simp only [CarryUnit.slotEmptied, this]
    rw [List.eraseP_of_forall_not (by simp)]

/-- Cancelling markers that are no OUTCOME's leaves the Carry Unit. -/
theorem State.cancel_carry_of (p : Marker → Bool) (s : State)
    (h : ∀ origin seq result, p (.outcome origin seq result) = false) : (s.cancel p).carry = s.carry := by
  simp only [State.cancel, State.abortMatching]
  refine foldl_slotEmptied_outcomes _ ?_
  intro x hx origin seq result he
  have := (List.mem_filter.mp hx).2
  rw [he, h] at this
  simp at this

/-! ### Bits read -/

/-- Bits read change the run counts and the recovery count and nothing else (R75, R89). -/
theorem Rbc.readBits_frame (bits : List Bool) (b : Rbc) :
    ∃ r d v, b.readBits bits = { b with recessiveRun := r, dominantRun := d, recovery := v } := by
  induction bits generalizing b with
  | nil => exact ⟨_, _, _, rfl⟩
  | cons bit rest ih =>
    obtain ⟨r, d, v, h⟩ := ih (b.readBit bit)
    refine ⟨r, d, v, h.trans ?_⟩
    cases bit <;> rfl

/-- Bits read keep the bounds of the bus controller (R75, R89). -/
theorem Rbc.Sound.readBits {b : Rbc} (h : b.Sound) (bits : List Bool) : (b.readBits bits).Sound := by
  induction bits generalizing b with
  | nil => exact h
  | cons bit rest ih =>
    refine ih ?_
    cases bit
    · exact ⟨h.tx, h.rx, h.slots, .inl rfl, Nat.le_refl 0⟩
    · refine ⟨h.tx, h.rx, h.slots, .inr rfl, ?_⟩
      change (if b.busOff then b.recovery + 1 else b.recovery) ≤ b.recessiveRun + 1
      have := h.recovery
      split <;> omega

/-! ### What each part of a settlement leaves -/

/-! ### Markers owed -/

/-- A marker is owed where it stands in the owed list or in a slot. -/
theorem owes_iff (m : Marker) (b : Rbc) : b.owes m = true ↔ m ∈ b.owed ∨ ∃ t ∈ b.slots, t.marker = m := by
  simp [Rbc.owes]

/-- Cancelling other markers leaves a marker owed. -/
theorem owes_cancel {m : Marker} {p : Marker → Bool} {s : State} (hp : p m = false) (h : s.rbc.owes m = true) :
    (s.cancel p).rbc.owes m = true := by
  rw [owes_iff] at h ⊢
  rcases h with h | ⟨t, ht, rfl⟩
  · left
    simp [State.cancel, State.abortMatching, Rbc.withdraw, h, hp]
  · right
    refine ⟨t, ?_, rfl⟩
    simp only [State.cancel, State.abortMatching, Rbc.withdraw, List.mem_map, List.mem_filter]
    exact ⟨t, ⟨ht, by simp [hp]⟩, by simp [hp]⟩

/-- Loading a marker into a slot leaves every marker owed. -/
theorem owes_putInSlot {m n : Marker} {f : Frame} {s : State} (h : s.rbc.owes m = true) :
    (s.putInSlot n f).rbc.owes m = true := by
  rw [owes_iff] at h ⊢
  simp only [State.putInSlot, List.mem_append, List.mem_singleton]
  by_cases e : m = n
  · right; exact ⟨_, Or.inr rfl, e.symm⟩
  · rcases h with h | ⟨t, ht, hm⟩
    · left; exact (List.mem_erase_of_ne e).mpr h
    · right; exact ⟨t, Or.inl ht, hm⟩

/-- Owing one more marker leaves every marker owed. -/
theorem owes_owe {m n : Marker} {b : Rbc} (h : b.owes m = true) : (b.owe n).owes m = true := by
  rw [owes_iff] at h ⊢
  rcases h with h | h
  · left; simp [Rbc.owe, h]
  · right; exact h

/-- A marker just owed is owed. -/
theorem owes_owe_self (m : Marker) (b : Rbc) : (b.owe m).owes m = true := by
  rw [owes_iff]; left; simp [Rbc.owe]

theorem lowestFrame_mem {l : List (Marker × Frame)} {x : Marker × Frame} (h : State.lowestFrame l = some x) : x ∈ l := by
  induction l generalizing x with
  | nil => simp [State.lowestFrame] at h
  | cons y rest ih =>
    unfold State.lowestFrame at h
    split at h
    · simp at h; simp [h]
    · rename_i m hm
      split at h
      · simp only [Option.some.injEq] at h
        exact List.mem_cons_of_mem _ (h ▸ ih hm)
      · simp at h; simp [h]

/-! ### How many frames there are to send -/

theorem State.toSend_of_same {s t : State} (m : Marker) (hr : t.rbc = s.rbc) (hc : t.carry.outcomes = s.carry.outcomes) :
    t.toSend m = s.toSend m := by cases m <;> simp [State.toSend, hr, hc]

/-- A marker owed is one frame more of it to send (R92). -/
theorem State.toSend_owe {s t : State} (m n : Marker) (hr : t.rbc = s.rbc.owe n)
    (hc : t.carry.outcomes = s.carry.outcomes) : t.toSend m = s.toSend m + if m = n then 1 else 0 := by
  have h : t.rbc.owed.count m = s.rbc.owed.count m + if m = n then 1 else 0 := by
    rw [hr, Rbc.owe, List.count_append, List.count_singleton]
    simp only [beq_iff_eq, @eq_comm _ n m]
  have hs : t.rbc.slots = s.rbc.slots := by rw [hr]; rfl
  cases m <;> simp only [State.toSend, h, hs, hc] <;> omega

/-- Cancelling adds no frame to send (R92, R93). -/
theorem State.toSend_cancel (p : Marker → Bool) (s : State) (m : Marker)
    (h : ∀ origin seq result, p (.outcome origin seq result) = false) : (s.cancel p).toSend m ≤ s.toSend m := by
  have ho : (s.cancel p).rbc.owed.count m ≤ s.rbc.owed.count m := List.filter_sublist.count_le m
  have hs : ((s.cancel p).rbc.slots.map Slot.marker).count m ≤ (s.rbc.slots.map Slot.marker).count m := by
    have : (s.cancel p).rbc.slots.map Slot.marker
        = (s.rbc.slots.filter fun t => !(p t.marker && !t.sending)).map Slot.marker := by
      simp only [State.cancel, State.abortMatching, Rbc.withdraw, List.map_map]
      apply List.map_congr_left
      intro x _
      simp only [Function.comp]
      split <;> rfl
    rw [this]
    exact (List.filter_sublist.map _).count_le m
  have hc := State.cancel_carry_of p s h
  cases m <;> simp only [State.toSend, hc] <;> omega

/-- Noting the first entry that a marker stands for as in a slot takes that entry, and no other, off those that wait. -/
theorem count_changeFirstOutcome (e x : OutcomeEntry) (hx : x.inSlot = false) (l : List OutcomeEntry) (m : Marker)
    (hm : ∀ y, CarryUnit.servedBy m false y = decide (y = e)) :
    (changeFirstOutcome (CarryUnit.servedBy m false) (fun y => { y with inSlot := true }) l).count x
      + (if x = e ∧ e ∈ l then 1 else 0) = l.count x := by
  induction l with
  | nil => simp [changeFirstOutcome]
  | cons y rest ih =>
    unfold changeFirstOutcome
    rw [hm]
    by_cases h : y = e
    · subst h
      have hn : ({ y with inSlot := true } : OutcomeEntry) ≠ x := by
        intro hh; rw [← hh] at hx; simp at hx
      by_cases hy : x = y
      · subst hy; simp [hn]
      · simp [hn, hy, Ne.symm hy]
    · simp only [h, decide_false, Bool.false_eq_true, if_false, List.count_cons, List.mem_cons, Ne.symm h, false_or]
      rw [← ih]; omega

/-- Loading a frame that waits moves it, and adds none (R92, R157). -/
theorem State.toSend_putInSlot (n : Marker) (f : Frame) (s : State) (m : Marker)
    (h : n ∈ s.rbc.owed ++ s.outcomeMarkers) : (s.putInSlot n f).toSend m ≤ s.toSend m := by
  have hslots : ((s.putInSlot n f).rbc.slots.map Slot.marker).count m
      = (s.rbc.slots.map Slot.marker).count m + if m = n then 1 else 0 := by
    rw [State.putInSlot, List.map_append, List.count_append, List.map_singleton, List.count_singleton]
    simp only [beq_iff_eq, @eq_comm _ n m]
  have howed : (s.putInSlot n f).rbc.owed.count m = s.rbc.owed.count m - if m = n then 1 else 0 := by
    rw [State.putInSlot, List.count_erase]
    simp only [beq_iff_eq, @eq_comm _ n m]
  have hin : n ∈ s.rbc.owed → m = n → 1 ≤ s.rbc.owed.count m := fun hi he => he ▸ List.count_pos_iff.mpr hi
  have hle : (s.putInSlot n f).rbc.owed.count m + ((s.putInSlot n f).rbc.slots.map Slot.marker).count m
      ≤ s.rbc.owed.count m + (s.rbc.slots.map Slot.marker).count m
        + if m = n ∧ n ∉ s.rbc.owed then 1 else 0 := by
    rw [hslots, howed]
    by_cases he : m = n
    · by_cases hi : n ∈ s.rbc.owed
      · have := hin hi he
        simp only [he, hi, if_true, not_true, and_false, if_false] at this ⊢
        omega
      · simp only [he, hi, if_true, not_false_iff, and_self]
        omega
    · simp [he]
  have hsame : ∀ e : OutcomeEntry, e.inSlot = false →
      (s.putInSlot n f).carry.outcomes.count e + (if n = .outcome e.origin e.seq e.result ∧ n ∉ s.rbc.owed then 1 else 0)
        ≤ s.carry.outcomes.count e := by
    intro e he
    cases n with
    | outcome o q r =>
      have hm : ∀ y, CarryUnit.servedBy (.outcome o q r) false y = decide (y = ⟨o, q, r, false⟩) := by
        intro y; rcases y with ⟨⟩; simp [CarryUnit.servedBy, Bool.and_assoc, eq_comm]
      have hc := count_changeFirstOutcome ⟨o, q, r, false⟩ e he s.carry.outcomes (.outcome o q r) hm
      have hmem : Marker.outcome o q r ∉ s.rbc.owed → (⟨o, q, r, false⟩ : OutcomeEntry) ∈ s.carry.outcomes := by
        intro hi
        rcases List.mem_append.mp h with h | h
        · exact absurd h hi
        · simp only [State.outcomeMarkers, List.mem_map, List.mem_filter] at h
          obtain ⟨y, ⟨hy, hs⟩, he⟩ := h
          rcases y with ⟨⟩
          simp_all
      have heq : ∀ (_ : Marker.outcome o q r = .outcome e.origin e.seq e.result), e = ⟨o, q, r, false⟩ := by
        intro hh; rcases e with ⟨⟩; simp_all
      simp only [State.putInSlot, CarryUnit.slotLoaded]
      by_cases hh : Marker.outcome o q r = .outcome e.origin e.seq e.result ∧ Marker.outcome o q r ∉ s.rbc.owed
      · rw [if_pos hh]
        rw [if_pos ⟨heq hh.1, hmem hh.2⟩] at hc
        omega
      · rw [if_neg hh]; omega
    | _ =>
      simp only [reduceCtorEq, false_and, if_false, Nat.add_zero]
      refine Nat.le_of_eq (congrArg _ ?_)
      · simp only [State.putInSlot, CarryUnit.slotLoaded]
        generalize s.carry.outcomes = l
        induction l with
        | nil => rfl
        | cons y rest ih => simp [changeFirstOutcome, CarryUnit.servedBy, ih]
  cases m with
  | outcome o q r =>
    have := hsame ⟨o, q, r, false⟩ rfl
    simp only [State.toSend]
    by_cases he : Marker.outcome o q r = n ∧ n ∉ s.rbc.owed
    · rw [if_pos he] at hle
      rw [if_pos ⟨he.1.symm, he.2⟩] at this
      omega
    · rw [if_neg he] at hle
      omega
  | _ =>
    simp only [State.toSend]
    refine Nat.add_le_add_right (hle.trans (Nat.le_of_eq ?_)) 0
    rw [if_neg]
    · rfl
    · rintro ⟨he, hi⟩
      rcases List.mem_append.mp h with h | h
      · exact hi h
      · simp only [State.outcomeMarkers, List.mem_map] at h
        obtain ⟨y, _, hy⟩ := h
        rw [← he] at hy
        cases hy

/-- A placement of a record by its state makes no other record IN_CALL. -/
theorem mem_modify_state {q : AlertQueue} {order : Nat} {st : RecState} {r : Record} (hst : st ≠ .inCall)
    (hr : r ∈ (q.modify order fun x => { x with state := st }).records) (hs : r.state = .inCall) : r ∈ q.records := by
  simp only [AlertQueue.modify, List.mem_map] at hr
  obtain ⟨x, hx, rfl⟩ := hr
  split at hs
  · exact absurd hs hst
  · next h => rw [if_neg h]; exact hx

section
variable {a b c s t : State}

theorem State.Settled.refl (s : State) : State.Settled s s := by
  constructor <;> first | (simp; done) | exact fun _ r hr _ => hr

/-- The frames that two parts of a step owe are those that the whole may owe. -/
theorem State.Settled.noMore_trans (h : State.Settled a b) (g : State.Settled b c) (m : Marker) :
    c.toSend m ≤ a.toSend m + State.owedAtEnd a c m := by
  have h1 := h.noMore m
  have g1 := g.noMore m
  cases m with
  | claim k key barge =>
    simp only [State.owedAtEnd] at h1 g1 ⊢
    by_cases hb : b.call.state = .idle
    · have hab : ¬ (a.call.state = .idle ∧ b.call.state ≠ .idle ∧ b.call.line = some k ∧
          (b.entry k).ownKey = some key ∧ (b.entry k).barge = barge) := fun x => x.2.1 hb
      have ha : a.call.state = .idle := by
        by_contra hn
        exact hn ((h.call hn).1 ▸ hb)
      rw [if_neg hab] at h1
      simp only [hb, true_and] at g1
      simp only [ha, true_and]
      omega
    · obtain ⟨e1, _, e3⟩ := g.call hb
      have e : c.entry k = b.entry k := by simp [State.entry, e3]
      rw [if_neg (fun x => hb x.1)] at g1
      rw [e1, e]
      omega
  | offer seq key =>
    simp only [State.owedAtEnd] at h1 g1 ⊢
    by_cases ha : a.carry.offer = none
    · by_cases hb : b.carry.offer = none
      · simp only [ha, hb, true_and, reduceCtorEq, if_false] at h1 g1 ⊢
        omega
      · have e := g.offer hb
        rw [if_neg (fun x => hb x.1)] at g1
        rw [e]
        omega
    · have hb : b.carry.offer ≠ none := by rw [h.offer ha]; exact ha
      rw [if_neg (fun x => ha x.1)] at h1 ⊢
      rw [if_neg (fun x => hb x.1)] at g1
      omega
  | state =>
    simp only [State.owedAtEnd] at h1 g1 ⊢
    split at h1 <;> split at g1 <;> split <;> omega
  | _ => exact g1.trans h1

theorem State.Settled.trans (h : State.Settled a b) (g : State.Settled b c) : State.Settled a c where
  loader := g.loader.trans h.loader
  time := g.time.trans h.time
  zone := g.zone.trans h.zone
  tone := g.tone.trans h.tone
  pending := g.pending.trans h.pending
  allDead := g.allDead.trans h.allDead
  entries k := (g.entries k).trans (h.entries k)
  wire := by
    have h1 := h.wire; have h2 := g.wire
    rcases a with ⟨_, _, _, _, _, ⟨⟩⟩; rcases b with ⟨_, _, _, _, _, ⟨⟩⟩; rcases c with ⟨_, _, _, _, _, ⟨⟩⟩
    simp_all
  queue := by
    have h1 := h.queue; have h2 := g.queue
    rcases a with ⟨_, _, _, ⟨⟩⟩; rcases b with ⟨_, _, _, ⟨⟩⟩; rcases c with ⟨_, _, _, ⟨⟩⟩
    simp_all
  records := g.records.trans h.records
  owed m hm ho := g.owed m hm (h.owed m hm ho)
  inCall hc r hr hs := h.inCall hc r (g.inCall (by rw [(h.call hc).1]; exact hc) r hr hs) hs
  call hc := by
    obtain ⟨h1, h2, h3⟩ := h.call hc
    obtain ⟨g1, g2, g3⟩ := g.call (by rw [h1]; exact hc)
    exact ⟨g1.trans h1, g2.trans h2, g3.trans h3⟩
  latch := g.latch.trans h.latch
  warmTime := g.warmTime.trans h.warmTime
  outcomes := g.outcomes.trans h.outcomes
  clash := g.clash.trans h.clash
  freshMark := g.freshMark.trans h.freshMark
  spacing := g.spacing.trans h.spacing
  noMore m := State.Settled.noMore_trans h g m
  offer ha := (g.offer (by rw [h.offer ha]; exact ha)).trans (h.offer ha)

theorem State.FramesOnly.trans (h : State.FramesOnly a b) (g : State.FramesOnly b c) : State.FramesOnly a c where
  settled := h.settled.trans g.settled
  sameCall := g.sameCall.trans h.sameCall
  sameClock := g.sameClock.trans h.sameClock
  sameView := g.sameView.trans h.sameView
  sameQueue := g.sameQueue.trans h.sameQueue
  sameOffer := g.sameOffer.trans h.sameOffer
  sameAccept := g.sameAccept.trans h.sameAccept
  sameFree := g.sameFree.trans h.sameFree

theorem State.noteReported_framesOnly (before s : State) : State.FramesOnly s (State.noteReported before s) := by
  unfold State.noteReported
  split
  · exact ⟨State.Settled.refl s, rfl, rfl, rfl, rfl, rfl, rfl, rfl⟩
  · refine ⟨?_, rfl, rfl, rfl, rfl, rfl, rfl, rfl⟩
    constructor <;> first
      | (simp [State.entry]; done)
      | exact fun _ r hr _ => hr
      | exact fun m => Nat.le_add_right_of_le (State.toSend_of_same m rfl rfl).le

/-- A STATE is owed only where none is (R175). -/
theorem State.toSend_oweState (s : State) (m : Marker) :
    s.oweState.toSend m ≤ s.toSend m + State.owedAtEnd s s.oweState m := by
  unfold State.oweState
  split
  · split
    · rename_i h
      simp only [Bool.and_eq_true, Bool.not_eq_true'] at h
      rw [State.toSend_owe (s := s) (t := { s with rbc := s.rbc.owe .state }) m .state rfl rfl]
      split
      · rename_i hm
        have hn : s.toSend .state = 0 := by
          have hno : ¬ (Marker.state ∈ s.rbc.owed ∨ ∃ t ∈ s.rbc.slots, t.marker = .state) := by
            rw [← owes_iff, h.1.2]; simp
          simp only [not_or, not_exists, not_and] at hno
          simp only [State.toSend, Nat.add_zero, Nat.add_eq_zero_iff, List.count_eq_zero]
          exact ⟨hno.1, by simpa using hno.2⟩
        subst hm
        simp [State.owedAtEnd, hn]
      · omega
    · exact Nat.le_add_right _ _
  · refine Nat.le_add_right_of_le ?_
    have : (s.rbc.owed.filter fun n => !decide (n = Marker.state)).count m ≤ s.rbc.owed.count m :=
      List.filter_sublist.count_le m
    cases m <;> simp only [State.toSend, Rbc.withdraw] <;> omega

theorem State.oweState_framesOnly (s : State) : State.FramesOnly s s.oweState := by
  refine ⟨?_, ?_, ?_, ?_, ?_, ?_, ?_, ?_⟩ <;> try simp
  constructor <;> try (simp [State.entry]; done)
  · unfold State.oweState
    split
    · split <;> simp [Rbc.owe]
    · simp [Rbc.withdraw]
  · intro m hm ho
    unfold State.oweState
    split
    · split
      · exact owes_owe ho
      · exact ho
    · rw [owes_iff] at ho ⊢
      rcases ho with ho | ho
      · left
        simp only [Rbc.withdraw, List.mem_filter]
        refine ⟨ho, ?_⟩
        cases m <;> simp_all [Marker.lasting]
      · exact Or.inr ho
  · intro _ r hr _
    simpa using hr
  · exact State.toSend_oweState s

theorem State.putInSlot_framesOnly (m : Marker) (f : Frame) (s : State) (h : m ∈ s.rbc.owed ++ s.outcomeMarkers) :
    State.FramesOnly s (s.putInSlot m f) := by
  refine ⟨?_, ?_, ?_, ?_, ?_, ?_, ?_, ?_⟩ <;> try (solve | simp)
  · constructor <;> try (simp [State.entry]; done)
    · simp [State.putInSlot]
    · exact fun m' _ ho => owes_putInSlot ho
    · exact fun _ r hr _ => hr
    · exact outcomes_slotLoaded m s.carry
    all_goals first
      | exact fun n => Nat.le_add_right_of_le (State.toSend_putInSlot m f s n h)
      | exact fun _ => rfl
      | (simp only [State.putInSlot]; split <;> rfl)
  all_goals simp [State.putInSlot, CarryUnit.slotLoaded]

theorem State.loadOne_framesOnly (s : State) : State.FramesOnly s s.loadOne := by
  unfold State.loadOne
  split
  · split
    · exact ⟨State.Settled.refl s, rfl, rfl, rfl, rfl, rfl, rfl, rfl⟩
    · rename_i m f h
      refine State.putInSlot_framesOnly m f s ?_
      have := lowestFrame_mem h
      simp only [State.loadable, List.mem_filterMap] at this
      obtain ⟨n, hn, he⟩ := this
      cases hc : s.compose n <;> simp_all
  · exact ⟨State.Settled.refl s, rfl, rfl, rfl, rfl, rfl, rfl, rfl⟩

theorem State.loadSlots_framesOnly (s : State) : State.FramesOnly s s.loadSlots :=
  ((State.loadOne_framesOnly s).trans (State.loadOne_framesOnly _)).trans (State.loadOne_framesOnly _)

/-- What `settleFrames` leaves: no call, offer or acceptance is touched. -/
theorem State.settleFrames_framesOnly (before s : State) : State.FramesOnly s (State.settleFrames before s) :=
  ((State.noteReported_framesOnly before s).trans (State.oweState_framesOnly _)).trans (State.loadSlots_framesOnly _)

theorem State.endAccept_settled (s : State) : State.Settled s s.endAccept := by
  unfold State.endAccept
  split
  · exact State.Settled.refl s
  · rename_i a _
    constructor <;> try (simp [State.entry]; done)
    · simp [State.cancel, State.abortMatching, Rbc.withdraw]
    · intro m hm ho
      refine owes_cancel ?_ ho
      cases m <;> simp_all [Marker.lasting]
    · exact fun _ r hr _ => hr
    · rw [State.cancel_carry_of _ _ (by simp)]
    · exact fun m => Nat.le_add_right_of_le
        ((State.toSend_cancel _ _ m (by simp)).trans (State.toSend_of_same m rfl rfl).le)
    · exact fun _ => by rw [State.cancel_carry_of _ _ (by simp)]

theorem State.checkAccept_settled (before s : State) : State.Settled s (State.checkAccept before s) := by
  unfold State.checkAccept
  split
  · exact State.endAccept_settled s
  · exact State.Settled.refl s

/-- Setting the state of the records of one admission order leaves all else of them. -/
theorem still_modify (q : AlertQueue) (order : Nat) (st : RecState) :
    (q.modify order fun x => { x with state := st }).records.map Record.still = q.records.map Record.still := by
  simp only [AlertQueue.modify, List.map_map]
  apply List.map_congr_left
  intro r _
  simp only [Function.comp]
  split <;> rfl

theorem firstOf_mem {now : Nat} {l : List Record} {r : Record} (h : firstOf now l = some r) : r ∈ l := by
  induction l generalizing r with
  | nil => simp [firstOf] at h
  | cons y rest ih =>
    unfold firstOf at h
    split at h
    · simp at h; simp [h]
    · rename_i m hm
      split at h
      · simp only [Option.some.injEq] at h
        exact List.mem_cons_of_mem _ (h ▸ ih hm)
      · simp at h; simp [h]

/-- What an offer is made for: a WAITING own record of the queue, with no offer outstanding (R146). -/
theorem State.offerable_mem {s : State} {r : Record} (h : s.offerable = some r) :
    r ∈ s.queue.records ∧ r.state = .waiting ∧ s.carry.offer = none := by
  unfold State.offerable at h
  split at h
  · rename_i hc
    simp only [Bool.and_eq_true, Option.isNone_iff_eq_none] at hc
    have hm := List.mem_filter.mp (firstOf_mem h)
    refine ⟨hm.1, ?_, hc.1.1⟩
    have hd := hm.2
    unfold State.dueForOffer at hd
    split at hd
    · simp only [Record.waiting, Bool.and_eq_true, decide_eq_true_eq] at hd
      exact hd.1.1
    · simp at hd
  · simp at h

theorem State.makeOffer_settled (s : State) : State.Settled s s.makeOffer := by
  unfold State.makeOffer
  split
  · exact State.Settled.refl s
  · rename_i r hr
    split
    · exact State.Settled.refl s
    · rename_i o _
      constructor <;> try (simp [State.entry, Rbc.owe]; done)
      · simp [AlertQueue.modify]
      · exact still_modify _ _ _
      · exact fun m _ ho => owes_owe ho
      · exact fun _ r hr hs => mem_modify_state (by simp) hr hs
      · intro m
        refine le_trans (le_of_eq (State.toSend_owe (s := s) m (.offer o.seq (r.key s.time s.address)) ?_ ?_)) ?_
        · rfl
        · rfl
        split
        · rename_i hm
          subst hm
          simp [State.owedAtEnd, (State.offerable_mem hr).2.2]
        · exact Nat.le_add_right _ _
      · exact fun hne => absurd (State.offerable_mem hr).2.2 hne

/-- The way to SEIZE keeps the call's line, and does not lead to IDLE (R126). -/
theorem State.trySeize_call (s : State) :
    s.trySeize.call.line = s.call.line ∧ (s.call.state ≠ .idle → s.trySeize.call.state ≠ .idle) := by
  unfold State.trySeize
  split
  · split
    · unfold State.enterSeize State.closeHook
      split <;> simp
    · exact ⟨rfl, id⟩
  · exact ⟨rfl, id⟩

/-- A request for the fast clock keeps the call's line, and does not lead to IDLE (R162). -/
theorem State.requestClock_call (s : State) :
    s.requestClock.call.line = s.call.line ∧ (s.call.state ≠ .idle → s.requestClock.call.state ≠ .idle) := by
  unfold State.requestClock
  split
  · split <;> exact ⟨rfl, id⟩
  · exact ⟨rfl, id⟩
  · unfold State.reportFastReady
    split
    · exact ⟨rfl, id⟩
    · exact State.trySeize_call _

/-- A call begun has its claim on the line: the line, the own key and the barge flag (R101). -/
theorem State.startCall_claim (r : Record) (k : LineId) (tier : Tier) (s : State) :
    (s.startCall r k tier).call.state ≠ .idle ∧ (s.startCall r k tier).call.line = some k ∧
    ((s.startCall r k tier).entry k).ownKey = some (r.key s.time s.address) ∧
    ((s.startCall r k tier).entry k).barge = decide (tier = .office) := by
  refine ⟨?_, ?_, ?_, ?_⟩
  · exact (State.trySeize_call _).2 ((State.requestClock_call _).2 (by simp [State.placeOn]))
  · exact (State.trySeize_call _).1.trans ((State.requestClock_call _).1.trans (by simp [State.placeOn]))
  · simp [State.startCall, State.entry, State.placeOn, Entry.placeOwn]; rfl
  · simp [State.startCall, State.entry, State.placeOn, Entry.placeOwn]

theorem State.startCall_settled (r : Record) (k : LineId) (tier : Tier) (s : State) (h : s.call.state = .idle) :
    State.Settled s (s.startCall r k tier) := by
  constructor <;> try (simp; done)
  · simp [State.startCall, State.placeOn]
  · intro j
    simp only [State.startCall, State.entry, State.trySeize_view, State.requestClock_view, State.placeOn,
      LineView.get_update]
    split <;> simp [Entry.others, Entry.clearOwn, Entry.placeOwn]
  · simp only [State.startCall, State.trySeize_rbc, State.requestClock_rbc, State.placeOn]
    split <;> simp [Rbc.owe]
  · simp [State.startCall, State.placeOn, AlertQueue.modify]
  · simp only [State.startCall, State.trySeize_queue, State.requestClock_queue, State.placeOn_queue]
    exact still_modify _ _ _
  · intro m _ ho
    simp only [State.startCall, State.trySeize_rbc, State.requestClock_rbc, State.placeOn]
    split
    · exact ho
    · exact owes_owe ho
  · exact fun hc => absurd h hc
  · exact fun hc => absurd h hc
  · simp only [State.startCall, State.trySeize_clock]
    unfold State.requestClock
    (repeat' split) <;> simp
  · simp only [State.startCall, State.trySeize_clock]
    unfold State.requestClock
    (repeat' split) <;> simp
  · intro m
    have hc : (s.startCall r k tier).carry.outcomes = s.carry.outcomes := by simp
    by_cases hs : s.solo = true
    · refine Nat.le_add_right_of_le (State.toSend_of_same m ?_ hc).le
      simp only [State.startCall, State.trySeize_rbc, State.requestClock_rbc, State.placeOn]
      exact if_pos hs
    · rw [State.toSend_owe (s := s) m (.claim k (r.key s.time s.address) (decide (tier = .office))) ?_ hc]
      · split
        · rename_i hm
          subst hm
          refine Nat.add_le_add_left ?_ _
          have := State.startCall_claim r k tier s
          simp only [State.owedAtEnd]
          rw [if_pos ⟨h, this.1, this.2.1, this.2.2.1, this.2.2.2⟩]
        · exact Nat.le_add_right _ _
      · simp only [State.startCall, State.trySeize_rbc, State.requestClock_rbc, State.placeOn]
        exact if_neg hs

theorem State.choose_settled (s : State) : State.Settled s s.choose := by
  unfold State.choose
  split
  · rename_i h
    split
    · exact State.Settled.refl s
    · split
      · exact State.startCall_settled _ _ _ s h.1
      · exact State.Settled.refl s
  · exact State.Settled.refl s

theorem State.chooseAndOffer_settled (s : State) : State.Settled s s.chooseAndOffer := by
  unfold State.chooseAndOffer
  split
  · have h : State.Settled s { s with free := s.free + 1 } := by
      constructor <;> first
        | (simp [State.entry]; done)
        | exact fun _ r hr _ => hr
        | exact fun m => Nat.le_add_right_of_le (State.toSend_of_same m rfl rfl).le
    simp only
    split
    · exact (h.trans (State.makeOffer_settled _)).trans (State.choose_settled _)
    · exact (h.trans (State.choose_settled _)).trans (State.makeOffer_settled _)
  · exact (State.choose_settled s).trans (State.makeOffer_settled _)

/-- What `settle` leaves as the step's own effect made it. -/
theorem State.settle_settled (before s : State) : State.Settled s (State.settle before s) :=
  ((((State.checkAccept_settled before s).trans (State.chooseAndOffer_settled _)).trans
    (State.noteReported_framesOnly before _).settled).trans (State.oweState_framesOnly _).settled).trans
    (State.loadSlots_framesOnly _).settled

/-- What `settleChoice` leaves as the step's own effect made it. -/
theorem State.settleChoice_settled (before s : State) : State.Settled s (State.settleChoice before s) :=
  ((((State.checkAccept_settled before s).trans (State.choose_settled _)).trans
    (State.noteReported_framesOnly before _).settled).trans (State.oweState_framesOnly _).settled).trans
    (State.loadSlots_framesOnly _).settled

end

end Sys2Proof.Machine
end

