-- ==== Sys2Proof/Laws/After.lean ====
section
/-! SUPPORT. What the end of a step leaves of slots, markers, offers and records beyond `State.Settled`:
`State.Closed` holds of every part of a settlement, and of the whole. -/

namespace Sys2Proof.Machine

/-- The markers that the end of a step may add: a claim chosen, an offer made, a STATE owed, an OUTCOME loaded. -/
def Marker.addedAtEnd : Marker → Bool
  | .claim _ _ _ => true
  | .offer _ _ => true
  | .state => true
  | .outcome _ _ _ => true
  | .object _ => false
  | .release _ _ => false
  | .accept _ _ _ => false
  | .carry _ _ => false

/-- An ACCEPT marker. -/
def Marker.isAccept : Marker → Bool
  | .accept _ _ _ => true
  | _ => false

/-- What the end of a step leaves, of slots, markers, offers and records. -/
structure State.Closed (made left : State) : Prop where
  /-- no frame goes on the wire -/
  noSending : made.rbc.sendingSlot = none → left.rbc.sendingSlot = none
  /-- a loaded frame stays loaded as it is, but an ACCEPT -/
  keepsSlots : ∀ x ∈ made.rbc.slots, x.marker.isAccept = false → x ∈ left.rbc.slots
  /-- nothing is owed that was not, but what the end of a step adds -/
  owesOnly : ∀ m, m.addedAtEnd = false → left.rbc.owes m = true → made.rbc.owes m = true
  offerKept : made.carry.offer.isSome = true → left.carry.offer = made.carry.offer
  offerNew : made.carry.offer = none → ∀ o, left.carry.offer = some o → o.phase = .owed
  /-- an outcome entry may go into a slot, and changes in nothing else -/
  outcomes : ∀ e ∈ left.carry.outcomes, e ∈ made.carry.outcomes ∨
    (e.inSlot = true ∧ { e with inSlot := false } ∈ made.carry.outcomes)
  /-- the records keep their admission orders, and none that is not WAITING is touched -/
  orders : left.queue.records.map Record.order = made.queue.records.map Record.order
  records : (made.queue.records.map Record.order).Nodup →
    ∀ r ∈ made.queue.records, r.state ≠ .waiting → r ∈ left.queue.records

section
variable {a b c s : State}

theorem sendingSlot_none_iff (b : Rbc) : b.sendingSlot = none ↔ ∀ x ∈ b.slots, x.sending = false := by
  simp [Rbc.sendingSlot]

theorem State.Closed.refl (s : State) : State.Closed s s where
  noSending h := h
  keepsSlots x hx _ := hx
  owesOnly m _ h := h
  offerKept _ := rfl
  offerNew h o ho := by rw [h] at ho; simp at ho
  outcomes e he := Or.inl he
  orders := rfl
  records _ r hr _ := hr

theorem State.Closed.trans (h : State.Closed a b) (g : State.Closed b c) : State.Closed a c where
  noSending k := g.noSending (h.noSending k)
  keepsSlots x hx hm := g.keepsSlots x (h.keepsSlots x hx hm) hm
  owesOnly m hm k := h.owesOnly m hm (g.owesOnly m hm k)
  offerKept k := by
    have h1 := h.offerKept k
    rw [g.offerKept (by rw [h1]; exact k), h1]
  offerNew k o ho := by
    cases hb : b.carry.offer with
    | none => exact g.offerNew hb o ho
    | some o' =>
      have h1 := g.offerKept (by rw [hb]; rfl)
      rw [h1, hb] at ho
      cases ho
      exact h.offerNew k _ hb
  outcomes e he := by
    rcases g.outcomes e he with k | ⟨k1, k2⟩
    · exact h.outcomes e k
    · rcases h.outcomes _ k2 with k | ⟨k3, _⟩
      · exact Or.inr ⟨k1, k⟩
      · simp at k3
  orders := g.orders.trans h.orders
  records hn r hr hs := g.records (by rw [h.orders]; exact hn) r (h.records hn r hr hs) hs

/-- A part of the settlement that leaves the queue, the outcome list, the offer, and what is to be sent. -/
theorem State.Closed.of_same (hr : c.rbc = a.rbc) (hc : c.carry = a.carry) (hq : c.queue = a.queue) :
    State.Closed a c := by
  constructor <;> simp_all

theorem State.noteReported_closed (before s : State) : State.Closed s (State.noteReported before s) :=
  State.Closed.of_same (by simp) (by simp) (by simp)

theorem State.oweState_closed (s : State) : State.Closed s s.oweState := by
  have hslots : s.oweState.rbc.slots = s.rbc.slots := by
    unfold State.oweState
    split
    · split <;> simp [Rbc.owe]
    · simp [Rbc.withdraw]
  constructor
  · intro h; rw [sendingSlot_none_iff] at h ⊢; rw [hslots]; exact h
  · intro x hx _; rw [hslots]; exact hx
  · intro m hm h
    rw [owes_iff] at h ⊢
    rw [hslots] at h
    rcases h with h | h
    · left
      unfold State.oweState at h
      split at h
      · split at h
        · simp only [Rbc.owe, List.mem_append, List.mem_singleton] at h
          rcases h with h | rfl
          · exact h
          · simp [Marker.addedAtEnd] at hm
        · exact h
      · exact (List.mem_filter.mp h).1
    · exact Or.inr h
  all_goals simp_all

theorem changeFirstOutcome_mem {p : OutcomeEntry → Bool} {f : OutcomeEntry → OutcomeEntry} {l : List OutcomeEntry}
    {e : OutcomeEntry} (h : e ∈ changeFirstOutcome p f l) : e ∈ l ∨ ∃ x ∈ l, p x = true ∧ e = f x := by
  induction l with
  | nil => simp [changeFirstOutcome] at h
  | cons x rest ih =>
    unfold changeFirstOutcome at h
    split at h
    · rename_i hp
      rcases List.mem_cons.mp h with rfl | h
      · exact Or.inr ⟨x, by simp, hp, rfl⟩
      · exact Or.inl (by simp [h])
    · rcases List.mem_cons.mp h with rfl | h
      · exact Or.inl (by simp)
      · rcases ih h with h | ⟨y, hy, hy2⟩
        · exact Or.inl (by simp [h])
        · exact Or.inr ⟨y, by simp [hy], hy2⟩

/-- Loading adds nothing owed, where what it loads was owed or comes from the outcome list. -/
theorem State.putInSlot_closed (m : Marker) (f : Frame) (s : State) (h : m ∈ s.rbc.owed ++ s.outcomeMarkers) :
    State.Closed s (s.putInSlot m f) := by
  constructor
  · intro hs; rw [sendingSlot_none_iff] at hs ⊢
    intro x hx
    simp only [State.putInSlot, List.mem_append, List.mem_singleton] at hx
    rcases hx with hx | rfl
    · exact hs x hx
    · rfl
  · intro x hx _; simp [State.putInSlot, hx]
  · intro n hn ho
    rw [owes_iff] at ho ⊢
    simp only [State.putInSlot, List.mem_append, List.mem_singleton] at ho
    rcases ho with ho | ⟨t, ht | rfl, rfl⟩
    · exact Or.inl (List.mem_of_mem_erase ho)
    · exact Or.inr ⟨t, ht, rfl⟩
    · rcases List.mem_append.mp h with h | h
      · exact Or.inl h
      · simp only [State.outcomeMarkers, List.mem_map] at h
        obtain ⟨e, _, he⟩ := h
        rw [← he] at hn
        simp [Marker.addedAtEnd] at hn
  · intro _; rfl
  · intro hn o ho; simp [State.putInSlot, CarryUnit.slotLoaded, hn] at ho
  · intro e he
    rcases changeFirstOutcome_mem he with he | ⟨x, hx, hp, rfl⟩
    · exact Or.inl he
    · refine Or.inr ⟨rfl, ?_⟩
      have : x.inSlot = false := by simp [CarryUnit.servedBy] at hp; exact hp.2
      rcases x with ⟨⟩
      simp_all
  · simp
  · intro _ r hr _; simpa using hr

theorem State.loadOne_closed (s : State) : State.Closed s s.loadOne := by
  unfold State.loadOne
  split
  · split
    · exact State.Closed.refl s
    · rename_i m f h
      refine State.putInSlot_closed m f s ?_
      have := lowestFrame_mem h
      simp only [State.loadable, List.mem_filterMap] at this
      obtain ⟨n, hn, he⟩ := this
      cases hc : s.compose n <;> simp_all
  · exact State.Closed.refl s

theorem State.loadSlots_closed (s : State) : State.Closed s s.loadSlots :=
  ((State.loadOne_closed s).trans (State.loadOne_closed _)).trans (State.loadOne_closed _)

/-- What `settleFrames` leaves of slots, markers, offers and records. -/
theorem State.settleFrames_closed (before s : State) : State.Closed s (State.settleFrames before s) :=
  ((State.noteReported_closed before s).trans (State.oweState_closed _)).trans (State.loadSlots_closed _)

/-- What cancelling does to the slots and the owed markers (R92, R93). -/
theorem State.cancel_noSending (p : Marker → Bool) (s : State) (h : s.rbc.sendingSlot = none) :
    (s.cancel p).rbc.sendingSlot = none := by
  rw [sendingSlot_none_iff] at h ⊢
  intro x hx
  simp only [State.cancel, State.abortMatching, Rbc.withdraw, List.mem_map, List.mem_filter] at hx
  obtain ⟨y, ⟨hy, _⟩, rfl⟩ := hx
  split <;> exact h y hy

theorem State.cancel_owes (p : Marker → Bool) (s : State) (m : Marker) (h : (s.cancel p).rbc.owes m = true) :
    s.rbc.owes m = true := by
  rw [owes_iff] at h ⊢
  simp only [State.cancel, State.abortMatching, Rbc.withdraw, List.mem_map, List.mem_filter] at h
  rcases h with h | ⟨t, ⟨y, ⟨hy, _⟩, rfl⟩, rfl⟩
  · exact Or.inl h.1
  · refine Or.inr ⟨y, hy, ?_⟩
    split <;> rfl

/-- With nothing in transmission, a cancelled marker is owed no more (R92, R93). -/
theorem State.cancel_gone (p : Marker → Bool) (s : State) (m : Marker) (hp : p m = true)
    (h : s.rbc.sendingSlot = none) : (s.cancel p).rbc.owes m = false := by
  rw [Bool.eq_false_iff, ne_eq, owes_iff]
  rw [sendingSlot_none_iff] at h
  simp only [State.cancel, State.abortMatching, Rbc.withdraw, List.mem_map, List.mem_filter]
  rintro (⟨_, k⟩ | ⟨t, ⟨y, ⟨hy, hc⟩, rfl⟩, hm⟩)
  · simp [hp] at k
  · have hy2 := h y hy
    have : y.marker = m := by rw [← hm]; split <;> rfl
    simp [this, hp, hy2] at hc

theorem State.endAccept_closed (s : State) : State.Closed s s.endAccept := by
  unfold State.endAccept
  split
  · exact State.Closed.refl s
  · rename_i x _
    set u : State := { s with carry := { s.carry with accept := none } }
    set p : Marker → Bool := fun m => decide (m = .accept x.origin x.seq x.value)
    have hc : (u.cancel p).carry = u.carry := State.cancel_carry_of p u (by simp [p])
    constructor
    · exact State.cancel_noSending p u
    · intro y hy hm
      have hp : p y.marker = false := by
        cases h : y.marker <;> simp_all [p, Marker.isAccept]
      simp only [State.cancel, State.abortMatching, Rbc.withdraw, List.mem_map, List.mem_filter]
      exact ⟨y, ⟨hy, by simp [hp]⟩, by simp [hp]⟩
    · exact fun m _ h => State.cancel_owes p u m h
    · intro _; rw [hc]
    · intro hn o ho; rw [hc] at ho; simp [u, hn] at ho
    · intro e he; rw [hc] at he; exact Or.inl he
    · simp [u]
    · intro _ r hr _; simpa [u] using hr

theorem State.checkAccept_closed (before s : State) : State.Closed s (State.checkAccept before s) := by
  unfold State.checkAccept
  split
  · exact State.endAccept_closed s
  · exact State.Closed.refl s

/-- Changing the state of one WAITING record leaves the orders and every record that is not WAITING. -/
theorem modify_state_orders (q : AlertQueue) (order : Nat) (st : RecState) :
    (q.modify order fun x => { x with state := st }).records.map Record.order = q.records.map Record.order := by
  simp only [AlertQueue.modify, List.map_map]
  apply List.map_congr_left
  intro r _
  simp only [Function.comp]
  split <;> rfl

theorem modify_other {q : AlertQueue} (hn : (q.records.map Record.order).Nodup) {r w : Record} (hr : r ∈ q.records)
    (hw : w ∈ q.records) (hne : r ≠ w) (f : Record → Record) : r ∈ (q.modify w.order f).records := by
  simp only [AlertQueue.modify, List.mem_map]
  exact ⟨r, hr, if_neg fun h => hne (eq_of_order hn hr hw h)⟩

theorem modify_self {q : AlertQueue} {r : Record} (hr : r ∈ q.records) (f : Record → Record) :
    f r ∈ (q.modify r.order f).records := by
  simp only [AlertQueue.modify, List.mem_map]
  exact ⟨r, hr, if_pos rfl⟩

/-- The lead is a WAITING record of the queue that meets the conditions of R27. -/
theorem State.lead_mem {s : State} {r : Record} (h : s.lead = some r) : r ∈ s.queue.records ∧ s.mayLead r = true :=
  List.mem_filter.mp (firstOf_mem h)

theorem State.lead_waiting {s : State} {r : Record} (h : s.lead = some r) : r.state = .waiting := by
  have := (State.lead_mem h).2
  simp only [State.mayLead, Record.waiting, Bool.and_eq_true, decide_eq_true_eq] at this
  exact this.1.1.1

theorem State.makeOffer_closed (s : State) : State.Closed s s.makeOffer := by
  unfold State.makeOffer
  split
  · exact State.Closed.refl s
  · rename_i r hr
    obtain ⟨hmem, hw, hno⟩ := State.offerable_mem hr
    split
    · exact State.Closed.refl s
    · constructor
      · intro h; exact h
      · intro x hx _; exact hx
      · intro m hm ho
        rw [owes_iff] at ho ⊢
        simp only [Rbc.owe, List.mem_append, List.mem_singleton] at ho
        rcases ho with (ho | rfl) | ho
        · exact Or.inl ho
        · simp [Marker.addedAtEnd] at hm
        · exact Or.inr ho
      · intro h; simp [hno] at h
      · intro _ o ho; simp at ho; rw [← ho]
      · intro e he; exact Or.inl he
      · exact modify_state_orders _ _ _
      · intro hn x hx hxs
        exact modify_other hn hx hmem (fun h => hxs (h ▸ hw)) _

theorem State.startCall_closed (r : Record) (k : LineId) (tier : Tier) (s : State) (hr : r ∈ s.queue.records)
    (hw : r.state = .waiting) : State.Closed s (s.startCall r k tier) := by
  have hslots : (s.startCall r k tier).rbc.slots = s.rbc.slots := by
    simp only [State.startCall, State.trySeize_rbc, State.requestClock_rbc, State.placeOn]
    split <;> simp [Rbc.owe]
  have hcarry : (s.startCall r k tier).carry = s.carry := by simp
  have hqueue : (s.startCall r k tier).queue = s.queue.modify r.order fun x => { x with state := .inCall } := by
    simp [State.startCall]
  constructor
  · intro h; rw [sendingSlot_none_iff] at h ⊢; rw [hslots]; exact h
  · intro x hx _; rw [hslots]; exact hx
  · intro m hm ho
    rw [owes_iff] at ho ⊢
    rw [hslots] at ho
    rcases ho with ho | ho
    · left
      simp only [State.startCall, State.trySeize_rbc, State.requestClock_rbc, State.placeOn] at ho
      split at ho
      · exact ho
      · simp only [Rbc.owe, List.mem_append, List.mem_singleton] at ho
        rcases ho with ho | rfl
        · exact ho
        · simp [Marker.addedAtEnd] at hm
    · exact Or.inr ho
  · intro _; rw [hcarry]
  · intro hn o ho; rw [hcarry, hn] at ho; simp at ho
  · intro e he; rw [hcarry] at he; exact Or.inl he
  · rw [hqueue]; exact modify_state_orders _ _ _
  · intro hn x hx hxs
    rw [hqueue]
    exact modify_other hn hx hr (fun h => hxs (h ▸ hw)) _

theorem State.choose_closed (s : State) : State.Closed s s.choose := by
  unfold State.choose
  split
  · split
    · exact State.Closed.refl s
    · rename_i r hr
      split
      · exact State.startCall_closed _ _ _ s (State.lead_mem hr).1 (State.lead_waiting hr)
      · exact State.Closed.refl s
  · exact State.Closed.refl s

theorem State.chooseAndOffer_closed (s : State) : State.Closed s s.chooseAndOffer := by
  unfold State.chooseAndOffer
  split
  · have h : State.Closed s { s with free := s.free + 1 } := State.Closed.of_same rfl rfl rfl
    simp only
    split
    · exact (h.trans (State.makeOffer_closed _)).trans (State.choose_closed _)
    · exact (h.trans (State.choose_closed _)).trans (State.makeOffer_closed _)
  · exact (State.choose_closed s).trans (State.makeOffer_closed _)

/-- What `settle` leaves of slots, markers, offers and records. -/
theorem State.settle_closed (before s : State) : State.Closed s (State.settle before s) :=
  ((((State.checkAccept_closed before s).trans (State.chooseAndOffer_closed _)).trans
    (State.noteReported_closed before _)).trans (State.oweState_closed _)).trans (State.loadSlots_closed _)

/-- What `settleChoice` leaves of slots, markers, offers and records. -/
theorem State.settleChoice_closed (before s : State) : State.Closed s (State.settleChoice before s) :=
  ((((State.checkAccept_closed before s).trans (State.choose_closed _)).trans
    (State.noteReported_closed before _)).trans (State.oweState_closed _)).trans (State.loadSlots_closed _)

end

end Sys2Proof.Machine
end

