-- ==== Sys2Proof/Laws/HangUp.lean ====
section
/-! SUPPORT. What hanging up does, once and for all: `State.HungUp` holds of `hangUp` and goes through `settle`. -/

namespace Sys2Proof.Machine

/-! ### Accounting touches the queue and the Carry Unit, and the health of one line -/

theorem State.checkAttempts_keeps (r : Record) (s : State) :
    (s.checkAttempts r).1 = { s with queue := (s.checkAttempts r).1.queue, carry := (s.checkAttempts r).1.carry } := by
  unfold State.checkAttempts
  (repeat' split) <;> rfl

theorem State.accountCentre_keeps (s : State) :
    s.accountCentre.1 = { s with queue := s.accountCentre.1.queue, carry := s.accountCentre.1.carry } := by
  unfold State.accountCentre
  split
  · rfl
  · simp only [State.countAttempt]
    rw [State.checkAttempts_keeps]

/-- The accounting, whatever the outcome, changes the queue and the Carry Unit, and F of the line after a line-caused
one (R139 part 2). -/
theorem State.account_keeps (k : LineId) (o : CallOutcome) (s : State) :
    (s.account k o).1 = { s with
      queue := (s.account k o).1.queue
      carry := (s.account k o).1.carry
      view := if o.kind = .lineCaused then s.view.update k fun e => { e with failures := min 7 (e.failures + 1) }
        else s.view } := by
  unfold State.account
  cases o <;> simp only [CallOutcome.kind] <;> first
    | rfl
    | (rw [State.accountCentre_keeps]; rfl)

/-! ### Every record IN_CALL goes back (R24) -/

/-- No record is IN_CALL in the second queue whose admission order was not IN_CALL in the first. -/
def NoNewCalls (q p : AlertQueue) : Prop :=
  ∀ r ∈ p.records, r.state = .inCall → ∃ x ∈ q.records, x.state = .inCall ∧ x.order = r.order

theorem NoNewCalls.refl (q : AlertQueue) : NoNewCalls q q := fun r hr hs => ⟨r, hr, hs, rfl⟩

theorem NoNewCalls.trans {p q r : AlertQueue} (h : NoNewCalls p q) (g : NoNewCalls q r) : NoNewCalls p r := by
  intro x hx hs
  obtain ⟨y, hy, hys, hyo⟩ := g x hx hs
  obtain ⟨z, hz, hzs, hzo⟩ := h y hy hys
  exact ⟨z, hz, hzs, hzo.trans hyo⟩

theorem NoNewCalls.none {p q : AlertQueue} (h : NoNewCalls p q) (hp : p.NoneInCall) : q.NoneInCall := by
  intro r hr hs
  obtain ⟨x, hx, hxs, _⟩ := h r hr hs
  exact hp x hx hxs

theorem noNewCalls_sublist {p q : AlertQueue} (h : ∀ r ∈ p.records, r ∈ q.records) : NoNewCalls q p :=
  fun r hr hs => ⟨r, h r hr, hs, rfl⟩

theorem noNewCalls_remove (q : AlertQueue) (order : Nat) : NoNewCalls q (q.remove order) :=
  noNewCalls_sublist fun _ hr => (List.mem_filter.mp hr).1

/-- A change of records that leaves their states and orders makes no call. -/
theorem noNewCalls_modify (q : AlertQueue) (order : Nat) (f : Record → Record)
    (hs : ∀ r, (f r).state = .inCall → r.state = .inCall) (ho : ∀ r, (f r).order = r.order) :
    NoNewCalls q (q.modify order f) := by
  intro r hr hst
  simp only [AlertQueue.modify, List.mem_map] at hr
  obtain ⟨x, hx, rfl⟩ := hr
  split at hst
  · next h => exact ⟨x, hx, hs x hst, by rw [if_pos h, ho]⟩
  · next h => exact ⟨x, hx, hst, by rw [if_neg h]⟩

theorem noNewCalls_create (now : Nat) (e : Event) (q : AlertQueue) : NoNewCalls q (q.create now e) := by
  intro r hr hs
  simp only [AlertQueue.create, List.mem_append, List.mem_singleton] at hr
  rcases hr with hr | rfl
  · exact ⟨r, hr, hs, rfl⟩
  · exact absurd hs (by simp [AlertQueue.ownRecord])

theorem noNewCalls_createOrDisplace (now : Nat) (e : Event) (q : AlertQueue) :
    NoNewCalls q (q.createOrDisplace now e) := by
  unfold AlertQueue.createOrDisplace
  split
  · exact noNewCalls_create now e q
  · split
    · exact (noNewCalls_remove q _).trans (noNewCalls_create now e _)
    · exact NoNewCalls.refl q

theorem noNewCalls_takeEvent (now : Nat) (e : Event) (q : AlertQueue) : NoNewCalls q (q.takeEvent now e).1 := by
  unfold AlertQueue.takeEvent
  (repeat' split) <;> simp only
  · exact noNewCalls_createOrDisplace now e q
  · exact noNewCalls_modify _ _ _ (fun _ h => h) fun _ => rfl
  · exact (noNewCalls_remove q _).trans (noNewCalls_modify _ _ _ (fun _ h => h) fun _ => rfl)
  · exact noNewCalls_createOrDisplace now e q
  · exact noNewCalls_createOrDisplace now e q

theorem noNewCalls_afterDeparture (now : Nat) (q : AlertQueue) : NoNewCalls q (q.afterDeparture now) := by
  unfold AlertQueue.afterDeparture
  split
  · exact noNewCalls_takeEvent now _ q
  · exact NoNewCalls.refl q

theorem noNewCalls_admitEvent (now : Nat) (e : Event) (q : AlertQueue) : NoNewCalls q (q.admitEvent now e) := by
  unfold AlertQueue.admitEvent
  split
  · exact (noNewCalls_takeEvent now e q).trans (noNewCalls_afterDeparture now _)
  · exact noNewCalls_takeEvent now e q

/-- A record given back is IN_CALL no more, and no other becomes so. -/
theorem giveBack_calls (now order : Nat) (q : AlertQueue) :
    ∀ r ∈ (q.giveBack now order).records, r.state = .inCall →
      r.order ≠ order ∧ ∃ x ∈ q.records, x.state = .inCall ∧ x.order = r.order := by
  have hmod : ∀ (p : AlertQueue) (f : Record → Record), (∀ x, (f x).state = .waiting) →
      ∀ r ∈ (p.modify order f).records, r.state = .inCall →
        r.order ≠ order ∧ ∃ x ∈ p.records, x.state = .inCall ∧ x.order = r.order := by
    intro p f hf r hr hs
    simp only [AlertQueue.modify, List.mem_map] at hr
    obtain ⟨x, hx, rfl⟩ := hr
    split at hs
    · exact absurd hs (by simp [hf])
    · next h => exact ⟨by rw [if_neg h]; exact h, x, hx, hs, by rw [if_neg h]⟩
  unfold AlertQueue.giveBack
  split
  · next hfind =>
    intro r hr hs
    have := (List.find?_eq_none.mp hfind) r hr
    exact ⟨by simpa using this, r, hr, hs, rfl⟩
  · split
    · exact hmod q _ fun _ => rfl
    · intro r hr hs
      obtain ⟨y, hy, hys, hyo⟩ := noNewCalls_afterDeparture now _ r hr hs
      obtain ⟨h1, z, hz, hzs, hzo⟩ := hmod _ _ (fun _ => rfl) y hy hys
      exact ⟨hyo ▸ h1, z, (List.mem_filter.mp hz).1, hzs, hzo.trans hyo⟩

/-- After a hang-up's returns no record is IN_CALL (R24, R139 part 3). -/
theorem giveBackAll_noneInCall (now : Nat) (q : AlertQueue) : (q.giveBackAll now).NoneInCall := by
  have h : ∀ (l : List Record) (p : AlertQueue),
      (∀ r ∈ p.records, r.state = .inCall → ∃ x ∈ l, x.order = r.order) →
      (l.foldl (fun acc r => acc.giveBack now r.order) p).NoneInCall := by
    intro l
    induction l with
    | nil =>
      intro p hp r hr hs
      obtain ⟨x, hx, _⟩ := hp r hr hs
      exact absurd hx (by simp)
    | cons y rest ih =>
      intro p hp
      refine ih _ fun r hr hs => ?_
      obtain ⟨hne, x, hx, hxs, hxo⟩ := giveBack_calls now y.order p r hr hs
      obtain ⟨z, hz, hzo⟩ := hp x hx hxs
      rcases List.mem_cons.mp hz with rfl | hz
      · exact absurd (hzo.trans hxo).symm hne
      · exact ⟨z, hz, hzo.trans hxo⟩
  refine h _ _ fun r hr hs => ⟨r, ?_, rfl⟩
  simp [AlertQueue.inCall, hr, hs]

theorem State.raise_noNewCalls (e : Event) (s : State) : NoNewCalls s.queue (s.raise e).queue := by
  unfold State.raise
  split
  · exact NoNewCalls.refl _
  · exact noNewCalls_admitEvent _ e _

theorem State.raiseAll_noNewCalls (events : List Event) (s : State) : NoNewCalls s.queue (s.raiseAll events).queue := by
  unfold State.raiseAll
  induction events generalizing s with
  | nil => exact NoNewCalls.refl _
  | cons e rest ih => exact (State.raise_noNewCalls e s).trans (ih (s.raise e))

/-! ### Where no join is due, the records go back as they are -/

theorem AlertQueue.SameButStates.trans {p q r : AlertQueue} (h : q.SameButStates p) (g : p.SameButStates r) :
    q.SameButStates r := by
  refine ⟨?_, h.records.trans g.records⟩
  have h1 := h.rest; have g1 := g.rest
  rcases p with ⟨⟩; rcases q with ⟨⟩; rcases r with ⟨⟩
  simp_all

theorem State.Settled.sameButStates {u t : State} (h : State.Settled u t) : t.queue.SameButStates u.queue :=
  ⟨h.queue, h.records⟩

/-- The records as they stand once those of some admission orders are given back, none joined. -/
def returned (orders : List Nat) (q : AlertQueue) : AlertQueue :=
  { q with records := q.records.map fun x => if x.order ∈ orders then { x with state := .waiting } else x }

/-- One more record given back, with no join due. -/
theorem giveBack_returned (now : Nat) (q : AlertQueue) (ho : (q.records.map Record.order).Nodup) (hj : q.NoJoinDue)
    (orders : List Nat) (hc : ∀ x ∈ q.records, x.order ∈ orders → x.state = .inCall) (y : Record)
    (hy : y ∈ q.records) (hys : y.state = .inCall) :
    (returned orders q).giveBack now y.order = returned (y.order :: orders) q := by
  have hmap : (returned orders q).modify y.order (fun x => { x with state := .waiting })
      = returned (y.order :: orders) q := by
    simp only [returned, AlertQueue.modify, List.map_map]
    congr 1
    refine List.map_congr_left fun x _ => ?_
    simp only [Function.comp, List.mem_cons]
    by_cases h1 : x.order ∈ orders <;> by_cases h2 : x.order = y.order
    all_goals simp only [h1, h2, if_true, if_false, true_or, or_true, or_false]
    all_goals simp_all
  unfold AlertQueue.giveBack
  split
  · next hf =>
    have := (List.find?_eq_none.mp hf) (if y.order ∈ orders then { y with state := .waiting } else y)
      (List.mem_map.mpr ⟨y, hy, rfl⟩)
    split at this <;> simp at this
  · next r hf =>
    obtain ⟨x, hx, hxr⟩ := List.mem_map.mp (List.mem_of_find?_eq_some hf)
    have hro : r.order = y.order := by simpa using List.find?_some hf
    have hxo : x.order = y.order := by rw [← hro, ← hxr]; split <;> rfl
    have hxy : x = y := eq_of_order ho hx hy hxo
    subst hxy
    have hnone : (returned orders q).joinTwin r = none := by
      unfold AlertQueue.joinTwin
      split
      · next h3 =>
        refine List.find?_eq_none.mpr fun w' hw' => ?_
        obtain ⟨w, hw, hww⟩ := List.mem_map.mp hw'
        simp only [Bool.and_eq_true, decide_eq_true_eq, Record.waiting, not_and, and_imp, Bool.not_eq_true]
        intro hws hwo
        have hwx : w ≠ x := by
          rintro rfl
          exact hwo (by rw [← hww, ← hxr])
        have hst : w.state = .waiting ∨ w.state = .inCall := by
          by_cases hm : w.order ∈ orders
          · exact .inr (hc w hw hm)
          · rw [← hww, if_neg hm] at hws
            exact .inl hws
        have h3' : 3 ≤ x.cls := by rw [← hxr] at h3; split at h3 <;> exact h3
        have := hj x hx hys h3' w hw hwx hst
        rw [← hww, ← hxr]
        by_cases ha : x.order ∈ orders <;> by_cases hb : w.order ∈ orders <;>
          simpa [ha, hb, Record.sameReport, Record.reports] using this
      · rfl
    rw [hnone]
    exact hmap

/-- Every record IN_CALL goes back as it is, where no join is due (R24, R25). -/
theorem giveBackAll_returned (now : Nat) (q : AlertQueue) (ho : (q.records.map Record.order).Nodup)
    (hj : q.NoJoinDue) :
    q.giveBackAll now = { q with records := q.records.map fun x =>
      { x with state := if x.state = .inCall then .waiting else x.state } } := by
  have h : ∀ (l : List Record) (orders : List Nat), (∀ y ∈ l, y ∈ q.records ∧ y.state = .inCall) →
      (∀ x ∈ q.records, x.order ∈ orders → x.state = .inCall) →
      l.foldl (fun acc r => acc.giveBack now r.order) (returned orders q)
        = returned ((l.map Record.order).reverse ++ orders) q := by
    intro l
    induction l with
    | nil => intro orders _ _; rfl
    | cons y rest ih =>
      intro orders hl hc
      obtain ⟨hy, hys⟩ := hl y (by simp)
      rw [List.foldl_cons, giveBack_returned now q ho hj orders hc y hy hys,
        ih _ (fun z hz => hl z (List.mem_cons_of_mem _ hz))]
      · simp
      · intro x hx hm
        rcases List.mem_cons.mp hm with h | h
        · exact eq_of_order ho hx hy h ▸ hys
        · exact hc x hx h
  have h0 : returned [] q = q := by simp [returned]
  have := h q.inCall [] (fun y hy => by simpa [AlertQueue.inCall] using hy) (by simp)
  rw [h0] at this
  unfold AlertQueue.giveBackAll
  rw [this, returned]
  congr 1
  refine List.map_congr_left fun x hx => ?_
  by_cases hs : x.state = .inCall
  · rw [if_pos, if_pos hs]
    simp only [List.append_nil, List.mem_reverse, List.mem_map]
    exact ⟨x, by simp [AlertQueue.inCall, hx, hs], rfl⟩
  · rw [if_neg, if_neg hs]
    simp only [List.append_nil, List.mem_reverse, List.mem_map, not_exists, not_and]
    intro y hy ho'
    simp only [AlertQueue.inCall, List.mem_filter, decide_eq_true_eq] at hy
    exact hs (eq_of_order ho hy.1 hx ho' ▸ hy.2)

/-- The records' return at the end of a call whose failure, if any, is the line's (R139 parts 2 and 3). -/
theorem State.returns_queueAtEnd (k : LineId) (o : CallOutcome) (s : State) (ho : (s.queue.records.map Record.order).Nodup)
    (hj : s.queue.NoJoinDue) (hc : o.kind ≠ .centreCaused) :
    ((s.releaseLine o).account k o).1.queue.giveBackAll s.time = s.queueAtEnd o := by
  have plain : s.queue.giveBackAll s.time = { s.queue with records := s.queue.records.map fun x =>
      { x with state := if x.state = .inCall then .waiting else x.state } } :=
    giveBackAll_returned s.time s.queue ho hj
  have other : o.kind ≠ .lineCaused → s.queue.giveBackAll s.time = s.queueAtEnd o := by
    intro hl
    rw [plain]
    simp [State.queueAtEnd, hl]
  by_cases hl : o.kind = .lineCaused
  · have hq : ((s.releaseLine o).account k o).1.queue = (match s.call.lead with
        | some order => s.queue.modify order fun r => { r with notBefore := s.time + lineGap }
        | none => s.queue) := by
      simp only [State.account, hl, State.accountLine, State.releaseLine]
      all_goals (cases s.call.lead <;> rfl)
    rw [hq]
    cases hlead : s.call.lead with
    | none => simp only; rw [plain]; simp [State.queueAtEnd, hlead]
    | some order =>
      simp only
      rw [giveBackAll_returned]
      · simp only [State.queueAtEnd, AlertQueue.modify, List.map_map]
        congr 1
        refine List.map_congr_left fun x _ => ?_
        by_cases hx : x.order = order
        · simp [hx, hlead, hl, lineGap]
        · simp [hx, hlead, Ne.symm hx]
      · simp only [AlertQueue.modify, List.map_map]
        refine (congrArg List.Nodup (List.map_congr_left fun x _ => ?_)).mpr ho
        simp only [Function.comp]
        split <;> rfl
      · intro x' hx' hs h3 w' hw' hne hws
        obtain ⟨x, hx, rfl⟩ := List.mem_map.mp hx'
        obtain ⟨w, hw, rfl⟩ := List.mem_map.mp hw'
        have hne' : w ≠ x := fun h => hne (by rw [h])
        have := hj x hx (by split at hs <;> exact hs) (by split at h3 <;> exact h3) w hw hne'
          (by split at hws <;> exact hws)
        by_cases ha : x.order = order <;> by_cases hb : w.order = order <;>
          simpa [ha, hb, Record.sameReport, Record.reports] using this
  · have hq : ((s.releaseLine o).account k o).1.queue = s.queue := by
      cases o <;> first | rfl | exact absurd rfl hc | exact absurd rfl hl
    rw [hq]
    exact other hl

/-- Only a centre-caused failure raises events of its own or changes the Carry Unit (R10, R37). -/
theorem State.account_quiet (k : LineId) (o : CallOutcome) (s : State) (hc : o.kind ≠ .centreCaused) :
    (s.account k o).2 = [] ∧ (s.account k o).1.carry = s.carry := by
  cases o <;> first | exact ⟨rfl, rfl⟩ | exact absurd rfl hc

/-! ### The RELEASE -/

/-- A RELEASE just owed is owed (R113). -/
theorem owes_oweRelease (k : LineId) (reason : Reason) (s : State) :
    (s.oweRelease k reason).rbc.owes (.release k reason) = true := by
  rw [owes_iff]
  left
  unfold State.oweRelease
  simp only
  split
  · next h =>
    obtain ⟨m, hm, hk⟩ := List.any_eq_true.mp h
    refine List.mem_map.mpr ⟨m, hm, ?_⟩
    rw [if_pos hk]
    cases m <;> simp_all [Marker.releases, Marker.withReason]
  · simp [Rbc.owe]

/-- A RELEASE owed for a line adds no other frame (R113). -/
theorem owed_oweRelease (k : LineId) (reason : Reason) (s : State) (m : Marker) (h : m.releases k = false) :
    (s.oweRelease k reason).rbc.owed.count m = s.rbc.owed.count m := by
  unfold State.oweRelease
  simp only
  split
  · simp only
    generalize s.rbc.owed = l
    induction l with
    | nil => rfl
    | cons x rest ih =>
      rw [List.map_cons, List.count_cons, List.count_cons, ih]
      split
      · rename_i hx
        have h1 : x.withReason reason ≠ m := by
          rintro rfl
          cases x <;> simp_all [Marker.releases, Marker.withReason]
        have h2 : x ≠ m := by rintro rfl; rw [h] at hx; simp at hx
        simp [h1, h2]
      · rfl
  · have hn : Marker.release k reason ≠ m := by rintro rfl; simp [Marker.releases] at h
    simp [Rbc.owe, hn]

theorem slots_oweRelease (k : LineId) (reason : Reason) (s : State) :
    (s.oweRelease k reason).rbc.slots = s.rbc.slots := by
  unfold State.oweRelease
  simp only
  split <;> rfl

/-- What is owed for another line, or as another kind, is no RELEASE of this line and no OUTCOME. -/
theorem toSend_beyondHangUp {k : LineId} {m : Marker} {s t : State} (h : m.beyondHangUp k = true)
    (ho : t.rbc.owed.count m = s.rbc.owed.count m) (hs : t.rbc.slots = s.rbc.slots) : t.toSend m = s.toSend m := by
  cases m <;> first
    | (simp [Marker.beyondHangUp] at h; done)
    | simp only [State.toSend, ho, hs]

/-- A RELEASE is owed where there is one to send. -/
theorem owes_release_iff (k : LineId) (reason : Reason) (s : State) :
    s.rbc.owes (.release k reason) = true ↔ 0 < s.toSend (.release k reason) := by
  rw [owes_iff]
  simp [State.toSend, List.count_pos_iff]

/-! ### The whole of it -/

/-- The entry of a line after the trouble flags were recomputed. -/
theorem State.refreshTrouble_entry (s : State) (k : LineId) :
    s.refreshTrouble.entry k =
      { s.entry k with trouble := (s.entry k).inTrouble s.loader.settings.lineThreshold } := by
  simp [State.refreshTrouble, State.entry, LineView.get]

@[simp] theorem State.refreshTrouble_allDead (s : State) : s.refreshTrouble.view.allDead = s.view.allDead := by
  simp [State.refreshTrouble]

theorem State.refreshTrouble_noNewCalls (s : State) : NoNewCalls s.queue s.refreshTrouble.queue := by
  unfold State.refreshTrouble
  exact State.raiseAll_noNewCalls _ _

/-- With no trouble flag changed, recomputing them raises nothing. -/
theorem State.refreshTrouble_quiet (s : State)
    (h : ∀ j, (s.refreshTrouble.entry j).trouble = (s.entry j).trouble) : s.refreshTrouble.queue = s.queue := by
  have hn : s.troubleChanges = [] := by
    refine List.filter_eq_nil_iff.mpr fun j _ => ?_
    have := h j
    rw [State.refreshTrouble_entry] at this
    simpa using this.symm
  simp [State.refreshTrouble, State.troubleEvents, hn, State.raiseAll]

/-- With one line newly in trouble and no other flag changed, its NEW event is admitted (R9). -/
theorem State.refreshTrouble_told (k : LineId) (s : State) (hf : s.loader.configFault = false)
    (h0 : (s.entry k).trouble = false) (h1 : (s.refreshTrouble.entry k).trouble = true)
    (h : ∀ j, j ≠ k → (s.refreshTrouble.entry j).trouble = (s.entry j).trouble) :
    s.refreshTrouble.queue = s.queue.admitEvent s.time ⟨90 + k.index, .line, .new, 4⟩ := by
  rw [State.refreshTrouble_entry] at h1
  simp only at h1
  have hn : s.troubleChanges = [k] := by
    have hp : ∀ j, decide ((s.entry j).trouble ≠ (s.entry j).inTrouble s.loader.settings.lineThreshold)
        = decide (j = k) := by
      intro j
      by_cases hj : j = k
      · subst hj; simp [h0, h1]
      · have := h j hj
        rw [State.refreshTrouble_entry] at this
        simp only at this
        simp [hj, this]
    simp only [State.troubleChanges, hp]
    cases k <;> decide
  simp [State.refreshTrouble, State.troubleEvents, hn, State.raiseAll, State.raise, hf, h1, lineEvent]

/-- What hanging up does (R139 to R142). -/
theorem State.hangUp_hungUp (k : LineId) (o : CallOutcome) (s : State) (h : s.call.line = some k) :
    State.HungUp k o s (s.hangUp o) := by
  have hk := State.account_keeps k o (s.releaseLine o)
  generalize hacc : (s.releaseLine o).account k o = acc at hk
  have hrw : s.hangUp o = (((if s.solo then ({ acc.1 with queue := acc.1.queue.giveBackAll s.time } : State)
      else ({ acc.1 with queue := acc.1.queue.giveBackAll s.time } : State).oweRelease k o.reason)).raiseAll
        acc.2).refreshTrouble := by
    unfold State.hangUp
    rw [h]
    simp only [hacc]
  have hview : ∀ j, (s.hangUp o).entry j =
      { acc.1.entry j with trouble := (acc.1.entry j).inTrouble acc.1.loader.settings.lineThreshold } := by
    intro j
    rw [hrw, State.refreshTrouble_entry]
    split <;> simp [State.entry]
  have hacc1 : ∀ j, acc.1.entry j = if o.kind = .lineCaused ∧ j = k then
      { s.entry j with failures := min 7 ((s.entry j).failures + 1) } else s.entry j := by
    intro j
    rw [hk]
    simp only [State.entry, State.releaseLine_view]
    by_cases hc : o.kind = .lineCaused
    · simp only [hc, if_true, LineView.get_update, true_and]
    · simp [hc]
  -- the state before the trouble flags are recomputed, where the accounting raises nothing
  generalize hu : (if s.solo then ({ acc.1 with queue := acc.1.queue.giveBackAll s.time } : State)
    else ({ acc.1 with queue := acc.1.queue.giveBackAll s.time } : State).oweRelease k o.reason) = u
  have hunraised : o.kind ≠ .centreCaused → s.hangUp o = u.refreshTrouble := by
    intro hc
    have := (State.account_quiet k o (s.releaseLine o) hc).1
    rw [hacc] at this
    rw [hrw, this, hu]
    rfl
  have hqueue : o.kind ≠ .centreCaused → (s.hangUp o).queue = u.refreshTrouble.queue := fun hc => by rw [hunraised hc]
  have hflags : ∀ j, (u.entry j).trouble = (s.entry j).trouble := by
    intro j
    have : u.entry j = acc.1.entry j := by rw [← hu]; split <;> simp [State.entry]
    rw [this, hacc1]
    split <;> rfl
  have hloader : u.loader = s.loader := by rw [← hu]; split <;> · simp; rw [hk]; simp
  have htime : u.time = s.time := by rw [← hu]; split <;> · simp; rw [hk]; simp
  have hplain : o.kind ≠ .centreCaused → s.queue.Sound → s.queue.NoJoinDue → u.queue = s.queueAtEnd o := by
    intro hc hq hj
    rw [← State.returns_queueAtEnd k o s hq.ordered.1 hj hc, hacc, ← hu]
    split <;> simp
  constructor
  · rw [hrw]
    split <;> · simp; rw [hk]; simp [State.releaseLine, CallEngine.hungUp]
  · rw [hrw]
    split <;> · simp; rw [hk]; simp [State.releaseLine]
  · rw [hrw]
    refine NoNewCalls.none ((State.raiseAll_noNewCalls _ _).trans (State.refreshTrouble_noNewCalls _)) ?_
    split
    · exact giveBackAll_noneInCall _ _
    · rw [State.oweRelease_queue]; exact giveBackAll_noneInCall _ _
  · intro hs
    rw [hrw, if_neg (by simp [hs])]
    simp only [State.refreshTrouble_rbc, State.raiseAll_rbc]
    exact owes_oweRelease k _ _
  · intro hs reason ho
    rw [hrw, if_pos hs] at ho
    simp only [State.refreshTrouble_rbc, State.raiseAll_rbc] at ho
    rw [hk] at ho
    exact ho
  · rw [hview, hacc1]
    by_cases hc : o.kind = .lineCaused <;> simp [hc]
  · intro j
    rw [hview, hacc1]
    split <;> simp
  · intro j hj
    rw [hview, hacc1, if_neg (fun hh => hj hh.2)]
  · intro j
    have hl : (s.hangUp o).loader = acc.1.loader := by rw [hrw]; split <;> simp
    rw [hview, hl]
    simp [Entry.inTrouble, Entry.Troubled]
  · intro hq hj hc hf
    rw [hqueue hc, State.refreshTrouble_quiet _ fun j => by rw [← hunraised hc, hflags, hf], hplain hc hq hj]
    exact ⟨rfl, rfl⟩
  · intro hq hj hc hcf h0 h1 hf
    rw [hqueue hc, State.refreshTrouble_told k _ (by rw [hloader, hcf]) (by rw [hflags, h0])
      (by rw [← hunraised hc, h1]) fun j hjk => by rw [← hunraised hc, hflags, hf j hjk], hplain hc hq hj, htime]
    exact ⟨rfl, rfl⟩
  · intro hc
    have := (State.account_quiet k o (s.releaseLine o) hc).2
    rw [hacc] at this
    rw [hrw]
    split <;> simp [this, State.releaseLine]
  · rw [hrw]
    split <;> · simp; rw [hk]; simp; split <;> simp
  · rw [hrw]
    split <;> · simp; rw [hk]; simp
  · rw [hrw]
    split <;> · simp; rw [hk]; simp
  · rw [hrw]
    split <;> · simp; rw [hk]; simp
  · rw [hrw]
    split <;> · simp; rw [hk]; simp
  · rw [hrw]
    split <;> · simp; rw [hk]; simp
  · rw [hrw]
    have hr : acc.1.rbc = s.rbc := by rw [hk]; simp
    split
    · simp [hr]
    · simp only [State.refreshTrouble_rbc, State.raiseAll_rbc, State.oweRelease, hr]
      split <;> simp [Rbc.owe]
  · rw [hrw]
    split <;> · simp; rw [hk]; simp
  · rw [hrw]
    split <;> · simp; rw [hk]; simp
  · rw [hrw]
    split <;> · simp; rw [hk]; simp
  · intro m hm
    have hr : acc.1.rbc = s.rbc := by rw [hk]; simp
    have hq : m.releases k = false := by cases m <;> first | rfl | simpa [Marker.beyondHangUp, Marker.releases] using hm
    refine le_of_eq (toSend_beyondHangUp hm ?_ ?_)
    · rw [hrw]
      split
      · simp [hr]
      · rw [State.refreshTrouble_rbc, State.raiseAll_rbc, owed_oweRelease _ _ _ _ hq, hr]
    · rw [hrw]
      split
      · simp [hr]
      · rw [State.refreshTrouble_rbc, State.raiseAll_rbc, slots_oweRelease, hr]

/-- A station that has hung up stays so through the end of the step. -/
theorem State.HungUp.settled {k : LineId} {o : CallOutcome} {s u t : State} (h : State.HungUp k o s u)
    (g : State.Settled u t) : State.HungUp k o s t := by
  have hne : u.call.state ≠ .idle := by rw [h.call]; simp [CallEngine.hungUp]
  obtain ⟨gc, gk, gv⟩ := g.call hne
  have ge : ∀ j, t.entry j = u.entry j := fun j => by simp [State.entry, gv]
  exact {
    call := gc.trans h.call
    tone := g.tone.trans h.tone
    noneInCall := fun r hr hs => h.noneInCall r (g.inCall hne r hr hs) hs
    released := fun hs => g.owed _ rfl (h.released hs)
    soloRelease := fun hs reason ho => by
      refine h.soloRelease hs reason ?_
      rw [owes_release_iff] at ho ⊢
      exact lt_of_lt_of_le ho (g.noMore (.release k reason))
    failures := by rw [ge]; exact h.failures
    entries := fun j => by rw [ge]; exact h.entries j
    otherLines := fun j hj => by rw [ge]; exact h.otherLines j hj
    trouble := fun j => by rw [ge, g.loader]; exact h.trouble j
    quiet := fun hq hj hc hf => g.sameButStates.trans (h.quiet hq hj hc fun j => by rw [← ge]; exact hf j)
    told := fun hq hj hc hcf h0 h1 hf =>
      g.sameButStates.trans (h.told hq hj hc hcf h0 (by rw [← ge]; exact h1) fun j hjk => by rw [← ge]; exact hf j hjk)
    outcomes := fun hc => g.outcomes.trans (h.outcomes hc)
    allDead := g.allDead.trans h.allDead
    clock := gk.trans h.clock
    loader := g.loader.trans h.loader
    time := g.time.trans h.time
    zone := g.zone.trans h.zone
    pending := g.pending.trans h.pending
    wire := by
      have h1 := h.wire; have h2 := g.wire
      rcases s with ⟨_, _, _, _, _, ⟨⟩⟩; rcases u with ⟨_, _, _, _, _, ⟨⟩⟩; rcases t with ⟨_, _, _, _, _, ⟨⟩⟩
      simp_all
    clash := g.clash.trans h.clash
    freshMark := g.freshMark.trans h.freshMark
    spacing := g.spacing.trans h.spacing
    noMore := fun m hm => by
      refine (g.noMore m).trans ?_
      have hz : State.owedAtEnd u t m = 0 := by
        cases m <;> simp_all [Marker.beyondHangUp, State.owedAtEnd]
      rw [hz]
      exact h.noMore m hm }

end Sys2Proof.Machine
end

