-- ==== Sys2Proof/Tests/Slice0.lean ====
section
/-! SUPPORT. Own tests: the manual's worked examples, the ill-formed commands that WellFormed refuses, small steps of the
commands, and for every statement with hypotheses a state and operands that meet them (`test_meets_...`). -/

namespace Sys2Proof.Tests

-- one test after another: side by side, their threads' stacks pass the data limit of the check
set_option Elab.async false

open Host Machine

/-! ### Worked examples of the manual -/

/-- The three keys of section 3.2. -/
theorem test_worked_keys :
    composeKey 0 29 1 5 = 949 ∧ composeKey 0 31 1 3 = 1011 ∧ composeKey 1 0 0 9 = 1033 ∧ keyClass 1033 = 1 := by decide

/-- Tables 3-1 and 3-2. -/
theorem test_wait_grades :
    [1000, 1019, 1020, 1047, 1600, 1619, 1620, 11000].map (fun now => 31 - periodsSince now 1000)
      = [31, 31, 30, 29, 1, 1, 0, 0] ∧
    [300, 319, 320, 539, 540].map (fun now => 12 - periodsSince now 300) = [12, 12, 11, 1, 0] := by decide

/-- The three report blocks of section 3.8: 402715 0 A 03 0 0 17 9, 118306 1 A 02 3 1 43 1, 402715 6 C 99 0 0 00 5. -/
theorem test_check_digits :
    checkDigit [4, 0, 2, 7, 1, 5, 0, 10, 0, 3, 0, 0, 1, 7] = 9 ∧
    checkDigit [1, 1, 8, 3, 0, 6, 1, 10, 0, 2, 3, 1, 4, 3] = 1 ∧
    checkDigit [4, 0, 2, 7, 1, 5, 6, 12, 9, 9, 0, 0, 0, 0] = 5 := by decide

/-- Table 3-7. -/
theorem test_retry_gaps :
    [1, 2, 3, 4, 5, 15].map (fun a => retryGap a 2) = [15, 15, 45, 45, 90, 90] ∧
    [1, 2, 3, 4, 5, 15].map (fun a => retryGap a 1) = [7, 7, 22, 22, 45, 45] := by decide

/-- The sequence number of a carried record goes into the block modulo 100: 118306 1 A 02 3 1 43 1 (R52). -/
theorem test_block_of_a_carried_record :
    Record.block 0x402715 ⟨.carried ⟨9, 143, 0x118306, 4, 300, false⟩, 2, .new, 1, 3, 0, 300, false, 0, .waiting⟩
      = [1, 1, 8, 3, 0, 6, 1, 10, 0, 2, 3, 1, 4, 3, 1] := by decide +kernel

/-- An own record's block: its own sequence number, relay digit 0 (R52, Table 11-4). -/
theorem test_block_of_an_own_record :
    Record.block 0x402715 ⟨.own ⟨17, .alarm, 953, 953⟩, 3, .new, 0, 0, 0, 1000, false, 0, .waiting⟩
      = [4, 0, 2, 7, 1, 5, 0, 10, 0, 3, 0, 0, 1, 7, 9] := by decide +kernel

/-- Figure 11-1: type 010, value 0001110110101, payload 0000 0001. -/
theorem test_claim_frame :
    (claimFrame 949 .l1 false).body
      = [false, true, false, false, false, false, true, true, true, false, true, true, false, true, false, true,
         false, false, false, false, false, false, false, true] := by decide +kernel

/-- An unacknowledged CLAIM with no bit inserted has 33 bits of stuffed region (section 5.9). -/
theorem test_region_length : (claimFrame 949 .l1 false).region.length = 33 := by decide +kernel

/-- The worked image of section 11.3.1. -/
def workedBytes : List Byte :=
  [0xA5, 0x3C, 0x40, 0x27, 0x15, 0x07, 0x94, 0x12, 0x20, 0x80] ++ List.replicate 17 0 ++ [0x03, 0xC0, 0x08]
    ++ List.replicate 14 0 ++ [0x0A, 0x04, 0x03, 0x18, 0x28, 0x01, 0x03, 0xC7]

/-- Its 416 bits. -/
def workedImage : BitVec 416 := packPayload 416 workedBytes

/-- It verifies, and its fields are those of the text before Table 11-6. -/
theorem test_worked_image :
    imageVerifies workedImage = true ∧ (imageSettings workedImage).account = 0x402715 ∧
    (imageSettings workedImage).number1
      = [.digit 9, .digit 4, .digit 1, .digit 2, .digit 2, .digit 0, .digit 8] ∧
    (imageSettings workedImage).number2 = [] ∧ (imageSettings workedImage).zones.get .z1 = ⟨true, true, 0, 8⟩ ∧
    (imageSettings workedImage).zones.get .z2 = ⟨false, false, 0, 8⟩ ∧ (imageSettings workedImage).maxAttempts = 10 ∧
    (imageSettings workedImage).handOff = 4 ∧ (imageSettings workedImage).lineThreshold = 3 ∧
    (imageSettings workedImage).testHours = 24 ∧ imageWarmTime workedImage = 40 ∧
    (imageSettings workedImage).willing = true ∧ imageWires workedImage .l1 = true ∧
    imageWires workedImage .l2 = false := by decide +kernel

/-- Table 1-2, at its boundaries. -/
theorem test_loop_bands :
    [9, 10, 69, 70, 149, 150].map (fun r => loopBand ⟨r, 100⟩)
      = [.short, .active, .active, .normal, .normal, .opened] := by decide

/-- Table 4-2, at its boundaries and in either polarity. -/
theorem test_line_bands :
    [48000, -20000, 19999, -3000, 2999, 0].map lineBand
      = [.onHook, .onHook, .offHook, .offHook, .noBattery, .noBattery] := by decide

/-- Table 7-1: the bands of the tone classes, and what is in none of them. -/
theorem test_tone_classes :
    [[350, 440], [300], [1560], [2030], [1528], [2071], [501], []].map toneClass
      = [.dial, .dial, .handshake, .kissoff, .none, .none, .none, .none] := by decide

/-! ### Commands that WellFormed refuses -/

theorem test_refuses_no_end_of_line_value : (Instr.zoneSamplePass (Eight.const ⟨100, 0⟩)).wellFormed = false := by decide
theorem test_refuses_a_receivers_bit_error : (Instr.receiveError .bit []).wellFormed = false := by decide
theorem test_refuses_a_receivers_ack_error : (Instr.receiveError .ack []).wellFormed = false := by decide
theorem test_refuses_a_transmitters_check_error : (Instr.transmitError .check []).wellFormed = false := by decide
theorem test_accepts_the_others :
    (Instr.zoneSamplePass (Eight.const ⟨100, 100⟩)).wellFormed = true ∧ (Instr.receiveError .check [true]).wellFormed = true ∧
    (Instr.transmitError .ack []).wellFormed = true ∧ Instr.reset.wellFormed = true := by decide

/-! ### States to start from -/

/-- The state after a command. -/
def after (c : Instr) (s : State) : State :=
  match exec c s with
  | .next t => t
  | .fault _ => s
  | .refused _ => s

/-- A wired line at rest. -/
def restLine : Entry := { Entry.reset with wired := true, band := some .onHook, run := 8, sense := some .onHook }

/-- Station 5 in operation: L0 and L1 wired and at rest, one number, the bus idle, 1000 s of station time. -/
def station : State :=
  { State.reset with
    loader := { Loader.reset with
      inReset := false, strap := 5, verified := true
      settings := { Settings.reset with number1 := [.digit 9, .digit 4], willing := true } }
    time := 1000
    zone := { ZoneUnit.reset with sampling := true }
    view := ⟨⟨restLine, restLine, Entry.reset, Entry.reset⟩, .absent⟩
    rbc := { Rbc.reset with join := .passed, recessiveRun := 11 } }

/-- An own alarm record of a class and a state. -/
def alarm (cls : Nat) (st : RecState) : Record :=
  ⟨.own ⟨7, .alarm, 953, 953⟩, 1, .new, cls, 0, 0, 1000, false, 0, st⟩

/-- The same station with records. -/
def withRecords (l : List Record) (s : State) : State :=
  { s with queue := { s.queue with records := l, admissions := 100 } }

/-- L0 with this station's own claim upon it, in its guard phase's outcome. -/
def ownLine (guard : Timer) : Entry :=
  { restLine with own := true, ownKey := some 2965, ownGuard := guard, ownGuardDone := decide (guard = .passed)
                  tier := some .free }

/-- Station 5 in a call on L0 for an own class 2 alarm: in a state, with a timer. -/
def calling (state : CallState) (timer : Option CallTimer) : State :=
  { station with
    view := ⟨⟨ownLine .passed, restLine, Entry.reset, Entry.reset⟩, .absent⟩
    queue := { AlertQueue.reset with records := [alarm 2 .inCall], admissions := 1 }
    call := { CallEngine.idle with
      state := state, timer := timer, line := some .l0, lead := some 0, inHand := some 0, guardDone := true
      fastReady := true, hook := (Four.const false).set .l0 state.onLine
      seize := (Four.const false).set .l0 state.onLine }
    clock := { ClockUnit.reset with state := .active, steady := true } }

/-- Station 5 in CLAIM on L0, its own guard as given, the fast clock warming. -/
def claiming (guard : Timer) : State :=
  { calling .claim none with
    view := ⟨⟨ownLine guard, restLine, Entry.reset, Entry.reset⟩, .absent⟩
    call := { CallEngine.idle with
      state := .claim, line := some .l0, lead := some 0, inHand := some 0, guardDone := decide (guard = .passed) }
    clock := { ClockUnit.reset with state := .warming, warmTimer := .running } }

/-- A station with one frame in a slot and on the wire, its start-of-frame bit read. -/
def sending (m : Marker) (f : Frame) (s : State) : State :=
  { s with rbc := { s.rbc with recessiveRun := 0, dominantRun := 1, slots := [⟨m, f, 0, false, true⟩] } }

/-- What a transmitter reads up to the bit at which a frame's n-th bit after the start differs. -/
def lostAt (n : Nat) (f : Frame) : List Bool := f.afterStart.take n ++ [!(f.afterStart.getD n true)]

/-- What a transmitter reads of a frame that no station acknowledges, up to the ACK slot and n bits more. -/
def unheard (n : Nat) (f : Frame) : List Bool := f.afterStart ++ List.replicate (n + 1) true

/-- A station that is receiving a frame. -/
def receiving (s : State) : State := { s with rbc := { s.rbc with recessiveRun := 0, dominantRun := 1, receiving := true } }

/-- One line's entry changed. -/
def withLine (k : LineId) (f : Entry → Entry) (s : State) : State := { s with view := s.view.update k f }

/-- `State.LineSound`, worked out. -/
def lineSound (s : State) : Bool :=
  (decide (s.call.state = .idle) == s.call.line.isNone) && (!decide (s.call.state = .idle) || !s.call.fastReady)
    && (LineId.all.all fun k =>
      ((s.entry k).own == decide (s.call.line = some k)) && (!decide (s.call.line = some k) || (s.entry k).wired)
        && (!s.call.hook.get k || decide (s.call.line = some k) && s.call.state.onLine)
        && (!s.call.seize.get k || decide (s.call.line = some k) && s.call.state.onLine)
        && (!(s.loader.inReset || s.loader.reading) || !(s.entry k).wired))
    && (!s.call.fastReady || decide (s.clock.state = .active))
    && (!s.call.state.onLine || decide (s.clock.state = .active))
    && (!s.clock.releaseTimer || decide (s.call.state = .idle))
    && (!(s.loader.inReset || s.loader.reading) || decide (s.call.state = .idle))
    && !(s.loader.inReset && s.loader.reading)

theorem lineSound_sound {s : State} (h : lineSound s = true) : s.LineSound := by
  simp only [lineSound, Bool.and_eq_true, List.all_eq_true] at h
  obtain ⟨⟨⟨⟨⟨⟨⟨h1, h2⟩, h3⟩, h4⟩, h5⟩, h6⟩, h7⟩, h8⟩ := h
  have hk : ∀ k, k ∈ LineId.all := by intro k; cases k <;> decide
  constructor
  · cases hl : s.call.line <;> simp_all
  · intro hi; simp_all
  · intro k; have := (h3 k (hk k)).1.1.1.1; simp only [beq_iff_eq] at this; rw [this]; simp
  · intro k hl; have := (h3 k (hk k)).1.1.1.2; simpa [hl] using this
  · intro k hh; have := (h3 k (hk k)).1.1.2; simpa [hh] using this
  · intro k hh; have := (h3 k (hk k)).1.2; simpa [hh] using this
  · intro hf; simpa [hf] using h4
  · intro hf; simpa [hf] using h5
  · intro hf; simpa [hf] using h6
  · intro hf
    have hb : (s.loader.inReset || s.loader.reading) = true := by simpa using hf
    refine ⟨by simpa [hb] using h7, fun k => ?_⟩
    have := (h3 k (hk k)).2
    simpa [hb] using this
  · simp only [Bool.not_eq_true', Bool.and_eq_false_iff] at h8
    rintro ⟨ha, hb⟩
    simp [ha, hb] at h8

/-- `AlertQueue.Sound`, worked out. -/
def queueSound (q : AlertQueue) : Bool :=
  decide (q.count ≤ 24 ∧ q.carriedCount ≤ 8 ∧ (q.records.map Record.order).Nodup
    ∧ (∀ r ∈ q.records, r.order < q.admissions) ∧ (q.records.filterMap Record.ownSeq).Nodup)

theorem queueSound_sound {q : AlertQueue} (h : queueSound q = true) : q.Sound := by
  have := of_decide_eq_true h
  exact ⟨⟨this.1, this.2.1⟩, ⟨this.2.2.1, this.2.2.2.1⟩, this.2.2.2.2⟩

/-- `State.FlagsRight`, worked out. -/
theorem flagsRight_of {s : State}
    (h : (LineId.all.all fun k => (s.entry k).trouble == (s.entry k).inTrouble s.loader.settings.lineThreshold) = true) :
    s.FlagsRight := by
  intro j
  have := List.all_eq_true.mp h j (by cases j <;> decide)
  rw [beq_iff_eq] at this
  rw [this]
  simp [Entry.inTrouble, Entry.Troubled]

/-- `State.Hears`, worked out. -/
theorem hears_of {value : BitVec 13} {s : State} (h : s.rbc.receiving = true ∧ s.rbc.stuck = false)
    (n : senderOf value ≠ s.address) : s.Hears value := ⟨h.1, h.2, Or.inr n⟩


/-! ### States and operands that meet the hypotheses of the statements, with what the commands do to them -/

theorem test_step_takes_the_front :
    step { station with pending := [.joinPeriodEnd, .frameStart] }
      = exec .joinPeriodEnd { station with pending := [.frameStart] }
    ∧ step station = .next station := ⟨rfl, rfl⟩

/-- `QueueSoundKept`, `BusSoundKept`, `LineSoundKept`, `LineSoundGivesHookLaw`: in a call with HOOK closed, a command
waiting. -/
theorem test_meets_invariants :
    let s : State := { calling .seize (some .dialToneWait) with pending := [.dialToneWaitExpiry] }
    s.queue.Sound ∧ s.rbc.Sound ∧ s.LineSound ∧ s.queue.records ≠ [] ∧ s.call.hook.get .l0 = true ∧
      ∃ t, step s = .next t ∧ t.call.state = .hangup := by
  refine ⟨queueSound_sound (by decide), ⟨by decide, by decide, by decide, by decide, by decide⟩, lineSound_sound (by decide),
    by decide, by decide, _, rfl, by decide +kernel⟩

/-- Station 5 released from reset, reading its image. -/
def reading : State := after (.releaseOfReset 5) State.reset

/-- `FaultQuietKept`: a station whose image did not verify, and one at address 0. -/
theorem test_meets_faultQuiet :
    (after (.configReadDone 0) reading).FaultQuiet ∧ (after (.releaseOfReset 0) State.reset).FaultQuiet := by
  constructor <;> constructor <;> decide +kernel

/-- `LatchesHoldUntilReset`, `WhatChangesOnlyThere`: every latch set, and a command that runs. -/
theorem test_meets_latches :
    let s : State := { station with
      clock := { station.clock with latch := true }
      ind := { station.ind with addressClash := true }
      loader := { station.loader with configFault := true } }
    (∃ t, exec .stationTimeTick s = .next t ∧ t.time = 1001 ∧ s.loader.inReset = false ∧ s.loader.verified = true) ∧
    ∃ t, exec .startOfFrameReceived s = .next t ∧ t ≠ s :=
  ⟨⟨_, rfl, by decide +kernel, by decide, by decide⟩, _, rfl, by decide +kernel⟩

/-- `QualifyingIsByClassAlone`: the ends of Table 3-4, at the ends of the other parts. -/
theorem test_meets_qualifying :
    qualifies (composeKey 0 31 1 15) (composeKey 2 0 0 0) = true ∧ qualifies (composeKey 0 0 0 0) (composeKey 1 31 1 15) = false ∧
    qualifies (composeKey 4 31 1 15) (composeKey 6 0 0 0) = true ∧ qualifies (composeKey 5 0 0 0) (composeKey 6 31 1 15) = false := by
  decide

/-- `SamplesDebounce`: the least debounce count, the default one, and a line's eight samples. -/
theorem test_meets_debounce :
    (Zone.reset.sample 2 .active).run = 1 ∧ ((Zone.reset.sample 2 .active).sample 2 .active).alarm = true ∧
    ((fun y => Zone.sample 8 .opened y)^[8] Zone.reset).trouble = true ∧
    ((fun y => Zone.sample 8 .opened y)^[7] Zone.reset).debounced = .normal ∧
    ((fun x => Entry.sample .offHook x)^[7] restLine).sense = some .onHook ∧
    ((fun x => Entry.sample .offHook x)^[8] restLine).sense = some .offHook := by decide +kernel

/-- `CheckDigitCatchesSlips`: the worked symbols, each 0 to 12. -/
theorem test_meets_checkDigit :
    let l := [4, 0, 2, 7, 1, 5, 0, 10, 0, 3, 0, 0, 1, 7]
    l.length = 14 ∧ (∀ a ∈ l, a ≤ 12) ∧ l[13]? ≠ some 12 ∧ l[0]? = some 4 ∧ l[1]? = some 0 := by decide

/-- `GradesOrderTheQueue`: an own record at its creation, a carried one at its acceptance. -/
theorem test_meets_waitGrade :
    (∃ o : OwnPart, (alarm 0 .waiting).kind = .own o ∧ o.created ≤ 953) ∧
    (∃ c : CarriedPart, c.accepted ≤ 300 ∧ c.wc = 12) := ⟨⟨_, rfl, by decide⟩, ⟨⟨9, 143, 0, 12, 300, false⟩, by decide⟩⟩

/-- `GradesOrderTheQueue`: two records of one class, and an order between them. -/
theorem test_meets_queueOrder :
    let l := [alarm 2 .waiting, { alarm 2 .waiting with order := 1 }]
    (l.map Record.order).Nodup ∧ firstOf 1000 l = some (alarm 2 .waiting) := by decide +kernel

/-- `FramesReadBack`: the bounds of each type's ranges, for a record of source 99, repeat 9 and class 6. -/
theorem test_meets_framesReadBack :
    readClaim (claimFrame 7167 .l3 true).value (packPayload 8 (claimFrame 7167 .l3 true).payload) = some ⟨15, 7167, .l3⟩ ∧
    readObject (objectFrame 1 .l0 true).value (packPayload 16 (objectFrame 1 .l0 true).payload) = some ⟨1, 1, .l0⟩ ∧
    readRelease (releaseFrame 15 .l3 .abandoned).value (packPayload 16 (releaseFrame 15 .l3 .abandoned).payload)
      = some ⟨15, .l3, .abandoned⟩ ∧
    readOffer (offerFrame 7167 255).value (packPayload 8 (offerFrame 7167 255).payload) = some ⟨15, 255⟩ ∧
    readOutcome (outcomeFrame 1 15 255 .returned).value (packPayload 24 (outcomeFrame 1 15 255 .returned).payload)
      = some ⟨1, 15, 255, .returned⟩ ∧
    readAccept (acceptFrame 1009 15 255).value (packPayload 16 (acceptFrame 1009 15 255).payload) = some ⟨1, 15, 255⟩ ∧
    readCarry
        (carryFrame 1000 5 15 0x999999 255
          ⟨.own ⟨255, .start, 1000, 0⟩, 99, .test, 6, 9, 0, 0, false, 0, .waiting⟩).value
        (packPayload 72 (carryFrame 1000 5 15 0x999999 255
          ⟨.own ⟨255, .start, 1000, 0⟩, 99, .test, 6, 9, 0, 0, false, 0, .waiting⟩).payload)
      = some ⟨5, 15, 255, 0x999999, 6, .test, 99, 9, 31⟩ ∧
    readState (stateFrame 15 true ⟨true, true, true, true, true, true, true⟩ 24 8 (Four.const .dead)).value
        (packPayload 32 (stateFrame 15 true ⟨true, true, true, true, true, true, true⟩ 24 8 (Four.const .dead)).payload)
      = some ⟨15, true⟩ := by decide +kernel

/-- A STATE of station 3 with COMM_FAIL alone, 5 records, 2 of them carried, L0 USABLE, L1 in TROUBLE, L2 not wired, L3 DEAD:
flags 08h, line summary 11 00 10 01 (Table 11-2, Table 4-5). -/
theorem test_state_payload :
    (stateFrame 3 false ⟨false, false, false, true, false, false, false⟩ 5 2 ⟨.usable, .trouble, .notWired, .dead⟩).payload
      = [0x08, 5, 2, 0xC9] := by decide

/-- A station that has just been released is reading its image, and its clash of address 0 is CONFIG_FAULT (R166). -/
theorem test_release_of_reset :
    State.reset.loader.inReset = true ∧ reading.loader.reading = true ∧ reading.address = 5 ∧
    reading.loader.configFault = false ∧ (after (.releaseOfReset 0) State.reset).loader.configFault = true ∧
    after .reset station = State.reset ∧ (station.cfgckPulses, reading.cfgckPulses) = (0, 440) ∧
    reading.cfgdoBits.length = 24 := by decide +kernel

/-- `ConfigReadDoneCompletes`: a verified image starts the station, with the station-start event and the fresh-start STATE
loaded (R14, R170); another leaves CONFIG_FAULT. -/
theorem test_config_read_done :
    imageVerifies workedImage = true ∧ (after (.configReadDone workedImage) reading).rbc.slots.map (fun x => x.frame.fresh)
      = [true] ∧
    (after (.configReadDone workedImage) reading).queue.records.map Record.source = [99] ∧
    imageVerifies 0 = false ∧ reading.queue.records = [] ∧ reading.call = CallEngine.idle ∧
    reading.clock.state = .quiet ∧ reading.carry.offer = none ∧ reading.carry.accept = none ∧
    (after (.configReadDone 0) reading).loader.configFault = true := by decide +kernel

/-- `ConfigReadDoneCompletes`, `Indications`: the reset station and the reading ones have not started; at address 0 the
verified image wires its line, and no event is raised and no STATE owed (R170, R171). -/
theorem test_start_at_address_0 :
    let zero := after (.releaseOfReset 0) State.reset
    let t := after (.configReadDone workedImage) zero
    State.reset.Unstarted ∧ reading.Unstarted ∧ zero.Unstarted ∧ zero.address = 0 ∧ zero.loader.configFault = true ∧
    zero.loader.reading = true ∧ zero.loader.inReset = false ∧ zero.rbc.owes .state = false ∧ zero.queue.records = [] ∧
    reading.ind.last = none ∧ reading.ind.spacing = false ∧ (t.entry .l1).wired = true ∧ t.rbc.join = .running ∧
    t.queue.records = [] ∧ t.zone.sampling = false ∧ t.rbc.slots = [] ∧ t.ind.freshMark = false ∧
    (after (.configReadDone 0) reading).rbc.owes .state = true := by
  refine ⟨⟨fun _ => rfl, fun h => absurd h (by decide)⟩, ⟨fun h => absurd h (by decide), fun _ _ => by decide +kernel⟩,
    ⟨fun h => absurd h (by decide), fun _ _ => by decide +kernel⟩, ?_⟩
  decide +kernel

/-- Table 1-5: every change of the debounced state, as (condition, class) in the order raised, with restorals set and
clear, at a zone of class 2. -/
theorem test_zone_events :
    let zone := fun b => Zone.reset.setDebounced b
    let events := fun restorals b c => (zoneEvents .z3 ⟨true, restorals, 2, 8⟩ (zone b) (zone c)).map fun e => (e.condition, e.cls)
    let row := fun restorals b => [Band.normal, .active, .opened, .short].map (events restorals b)
    (∀ b ∈ [Band.normal, .active, .opened, .short], (zone b).Consistent) ∧
    row true .normal = [[], [(.alarm, 2)], [(.trouble, 4)], [(.trouble, 4)]] ∧
    row true .active = [[(.alarm, 5)], [], [(.alarm, 5), (.trouble, 4)], [(.alarm, 5), (.trouble, 4)]] ∧
    row true .opened = [[(.trouble, 5)], [(.trouble, 5), (.alarm, 2)], [], []] ∧
    row true .short = [[(.trouble, 5)], [(.trouble, 5), (.alarm, 2)], [], []] ∧
    row false .active = [[], [], [(.trouble, 4)], [(.trouble, 4)]] ∧
    row false .short = [[], [(.alarm, 2)], [], []] := by
  refine ⟨fun b _ => ?_, by decide +kernel⟩
  cases b <;> exact ⟨by decide, by decide⟩

/-- A station with zone Z1 in use at a debounce of 2, one sample of ACTIVE taken. -/
def zoned : State :=
  { station with
    loader := { station.loader with settings := { station.loader.settings with
      zones := Eight.ofZone fun z => if z = .z1 then ⟨true, true, 0, 2⟩ else ⟨false, false, 0, 8⟩ } }
    zone := { station.zone with zones := Eight.ofZone fun z =>
      if z = .z1 then ⟨.active, 1, .normal, false, false⟩ else Zone.reset } }

/-- `ZoneConditionsFollowTheDebouncedState`, `ZonePassCompletes`: the second sample of ACTIVE is the alarm (R3 to R5). -/
theorem test_zone_alarm :
    zoned.zone.sampling = true ∧ (zoned.zone.zones.get .z1).Consistent ∧
    ((after (.zoneSamplePass (Eight.const ⟨50, 100⟩)) zoned).zone.zones.get .z1).alarm = true ∧
    (after (.zoneSamplePass (Eight.const ⟨50, 100⟩)) zoned).queue.records.map (fun r => (r.source, r.cls))
      = [(1, 0)] := by
  refine ⟨by decide, ⟨by decide, by decide⟩, by decide +kernel, by decide +kernel⟩

/-- `UnusedZonesHaveNoEffect`: a sound station with one zone in use, and two passes that differ at another's terminal. -/
theorem test_meets_unused_zones :
    zoned.ZonesSound ∧ zoned.loader.reading = false ∧
    (∀ n : ZoneId, (zoned.loader.settings.zones.get n).inUse = true →
      (Eight.const (⟨50, 100⟩ : LoopMeasure)).get n
        = (Eight.ofZone fun z => if z = .z1 then (⟨50, 100⟩ : LoopMeasure) else ⟨500, 100⟩).get n) ∧
    (passEvents (Eight.const ⟨50, 100⟩) zoned).map Event.source = [1] := by
  refine ⟨⟨by decide +kernel, by decide +kernel, fun h => absurd h (by decide +kernel), fun n => ?_⟩, by decide +kernel, fun n => ?_,
    by decide +kernel⟩ <;> cases n <;> decide +kernel

/-- A change between OPEN and SHORT changes neither condition (R4). -/
theorem test_open_to_short :
    let z : Zone := ⟨.short, 1, .opened, false, true⟩
    z.Consistent ∧ (z.sample 2 .short).debounced = .short ∧ (z.sample 2 .short).trouble = true := by
  refine ⟨⟨by decide, by decide⟩, by decide, by decide⟩

/-- `SupervisionTimersComplete` (R11, R13). -/
theorem test_own_timers :
    let s : State := { station with zone := { station.zone with testTimer := some 0, busTimer := true } }
    s.zone.testTimer = some 0 ∧ s.zone.busTimer = true ∧
    (after .testTimerExpiry s).queue.records.map Record.source = [98] ∧
    (after .busTroubleTimerExpiry s).zone.busTrouble = true := by decide +kernel

/-- L0 of a call, seven samples into ON_HOOK after OFF_HOOK. -/
def losing : State :=
  withLine .l0 (fun e => { e with sense := some .offHook, band := some .onHook, run := 7 })
    (calling .seize (some .dialToneWait))

/-- `LinePassCompletes`: the eighth sample loses the line (R129); a pass of another kind leaves the call. -/
theorem test_line_pass :
    losing.loader.verified = true ∧ losing.call.line = some .l0 ∧ losing.call.hook.get .l0 = true ∧
    (after (.lineSamplePass (Four.const 48000)) losing).call.outcome = some .lineLost ∧
    (after (.lineSamplePass (Four.const 8000)) losing).call.state = .seize := by decide +kernel

/-- `LinePassCompletes`: the line-lost timer starts with the eighth sample of NO_BATTERY and is removed with that of
OFF_HOOK (R129); a line no longer dead raises 90 CLEARED and ends all-dead (R9, R58). -/
theorem test_line_watch :
    let turning := fun old new => withLine .l0 (fun e => { e with sense := old, band := some new, run := 7 })
      { calling .dial (some .digit) with call := { (calling .dial (some .digit)).call with lineLost := true } }
    let dead := withLine .l0 (fun e => { e with
      dead := true, trouble := true, sense := some .noBattery, band := some .onHook, run := 7 }) station
    (after (.lineSamplePass (Four.const 0)) (turning (some .offHook) .noBattery)).call.lineLost = true ∧
    (after (.lineSamplePass (Four.const 8000)) (turning (some .noBattery) .offHook)).call.lineLost = false ∧
    (after (.lineSamplePass (Four.const 48000)) dead).queue.records.map (fun r => (r.source, r.cls)) = [(90, 5)] ∧
    (after (.lineSamplePass (Four.const 48000)) { dead with view := { dead.view with allDead := .passed } }).view.allDead
      = .absent := by decide +kernel

/-- `SupervisionTimersComplete`: L1 is the last live line (R57, R58, R70). -/
theorem test_dead_timers :
    let s := withLine .l0 (fun e => { e with dead := true, trouble := true })
      (withLine .l1 (fun e => { e with deadTimer := true, sense := some .noBattery }) station)
    (s.entry .l1).deadTimer = true ∧ (s.entry .l1).wired = true ∧ (s.entry .l0).dead = true ∧
    (after (.deadTimerExpiry .l1) s).view.allDead = .running ∧
    (after (.deadTimerExpiry .l1) s).queue.records.map Record.source = [91] ∧
    (after (.deadTimerExpiry .l1) s).queue.records.map Record.cls = [4] ∧
    (after (.deadTimerExpiry .l1) (withLine .l1 (fun e => { e with failures := 3, trouble := true }) s)).queue.records = [] ∧
    (after .allDeadTimerExpiry (after (.deadTimerExpiry .l1) s)).cannotDial = true := by decide +kernel

/-- An event of the alarm's source and condition. -/
def again (q : Qualifier) : Event := ⟨1, .alarm, q, 0⟩

/-- `EventsMergeOrCreate`: a merge, a creation, and a withdrawal with the overflow flag set: the CLEARED record goes, the
onset before it takes the repeat, and the overflow event follows, with the sequence number that the withdrawal freed, or
into the one that waits (R21, R28 to R30, R32). -/
theorem test_admission :
    let q : AlertQueue := { AlertQueue.reset with records := [alarm 0 .waiting], admissions := 1 }
    let cleared : Record := { alarm 5 .waiting with
      kind := .own ⟨8, .alarm, 960, 960⟩, qualifier := .cleared, order := 1 }
    let told : Record := { alarm 4 .waiting with kind := .own ⟨9, .overflow, 960, 960⟩, source := 95, order := 2 }
    let ended : AlertQueue := { q with
      records := [alarm 0 .waiting, cleared], admissions := 2, seqCounter := 7, overflow := true }
    let two : AlertQueue := { ended with records := [alarm 0 .waiting, cleared, told], admissions := 3 }
    two.Sound ∧ lastOf 1000 (two.records.filter fun r => r.waiting && r.reports 1 .alarm) = some cleared ∧
    (two.admitEvent 1000 (again .new)).records.map (fun r => (r.source, r.rep)) = [(1, 1), (95, 1)] ∧
    (ended.admitEvent 1000 (again .new)).records.map Record.ownSeq = [some 7, some 8] ∧
    ended.Sound ∧ lastOf 1000 (ended.records.filter fun r => r.waiting && r.reports 1 .alarm) = some cleared ∧
    (ended.admitEvent 1000 (again .new)).records.map (fun r => (r.source, r.rep)) = [(1, 1), (95, 0)] ∧
    (ended.admitEvent 1000 (again .new)).overflow = false ∧
    q.Sound ∧ lastOf 1000 (q.records.filter fun r => r.waiting && r.reports 1 .alarm) = some (alarm 0 .waiting) ∧
    (q.admitEvent 1000 (again .new)).records.map Record.rep = [1] ∧
    AlertQueue.reset.Sound ∧ (AlertQueue.reset.admitEvent 1000 (again .new)).records.map Record.order = [0] :=
  ⟨queueSound_sound (by decide), by decide, by decide +kernel, by decide +kernel, queueSound_sound (by decide), by decide,
    by decide +kernel, by decide +kernel, queueSound_sound (by decide), by decide, by decide, queueSound_sound (by decide),
    by decide⟩

/-- Table 2-4 (R21). -/
theorem test_sequence_numbers :
    let q := fun (counter : Byte) (held : List Byte) => ({ AlertQueue.reset with
      seqCounter := counter
      records := held.map fun n => { alarm 3 .waiting with kind := .own ⟨n, .trouble, 960, 960⟩, source := 2 } } : AlertQueue)
    [q 253 [12, 254], q 254 [12, 253, 254], q 0 [0, 1, 12], q 12 [12, 13]].map (fun x =>
      let y := x.admitEvent 1000 (again .new)
      (y.records.getLast?.bind Record.ownSeq, y.seqCounter)) = [(some 253, 254), (some 255, 0), (some 2, 3), (some 14, 15)] := by
  decide +kernel

/-- Twenty-four own records of a class, with different orders, sequence numbers and sources. -/
def full (cls : Nat) : AlertQueue :=
  { AlertQueue.reset with
    admissions := 24
    records := (List.range 24).map fun n =>
      ⟨.own ⟨BitVec.ofNat 8 n, .trouble, 900, 900⟩, 10 + n, .new, cls, 0, 0, 900, false, n, .waiting⟩ }

/-- `FullQueueDisplaces`: a victim for an alarm among records of class 4, and none among records of class 2 (R31). -/
theorem test_full_queue :
    (full 4).Sound ∧ (full 4).count = 24 ∧ (full 4).overflow = false ∧
    (∀ r ∈ (full 4).records, r.waiting = true → r.reports 1 .alarm = true → r.qualifier ≠ .new) ∧
    ((full 4).admitEvent 1000 (again .new)).records.map Record.order = (List.range 23) ++ [24] ∧
    (full 2).Sound ∧ (full 2).count = 24 ∧ ((full 2).admitEvent 1000 (again .new)).records = (full 2).records ∧
    ((full 2).admitEvent 1000 (again .new)).queueOverflow = true :=
  ⟨queueSound_sound (by decide +kernel), by decide, by decide, by decide +kernel, by decide +kernel,
    queueSound_sound (by decide +kernel), by decide, by decide +kernel, by decide +kernel⟩

/-- `RecordsReturnAndJoin`: with a WAITING twin of class 3 and without one (R25). -/
theorem test_join :
    let twin := { alarm 3 .waiting with order := 1, kind := .own ⟨8, .alarm, 960, 960⟩ }
    let q : AlertQueue := { AlertQueue.reset with records := [alarm 3 .inCall, twin], admissions := 2 }
    q.Sound ∧ q.overflow = false ∧ twin ∈ q.records ∧ twin ≠ alarm 3 .inCall ∧ twin.source = 1 ∧
    (q.giveBack 1000 0).records.map (fun r => (r.order, r.rep)) = [(0, 1)] ∧
    (({ q with records := [alarm 3 .inCall] } : AlertQueue).giveBack 1000 0).records = [alarm 3 .waiting] := by
  refine ⟨queueSound_sound (by decide), ?_⟩; decide

/-- `DeparturesCallOverflow`: the overflow event created, merged into the one that waits, and QUEUE_OVERFLOW cleared by the
delivery of that one alone (R32, R33). -/
theorem test_departures :
    let told : Record := { alarm 4 .waiting with kind := .own ⟨8, .overflow, 960, 960⟩, source := 95, order := 1 }
    let q := fun l => ({ AlertQueue.reset with
      records := l, admissions := 2, overflow := true, queueOverflow := true } : AlertQueue)
    (q [alarm 0 .waiting, told]).Sound ∧ (q [alarm 0 .waiting]).Sound ∧
    ((q [alarm 0 .waiting]).depart 1000 0).records.map (fun r => (r.source, r.cls, r.order)) = [(95, 4, 2)] ∧
    ((q [alarm 0 .waiting, told]).depart 1000 0).records.map (fun r => (r.source, r.rep)) = [(95, 1)] ∧
    ((q [alarm 0 .waiting, told]).depart 1000 0).overflow = false ∧
    ((q [alarm 0 .waiting, told]).deliver 1000 (alarm 0 .waiting)).queueOverflow = true ∧
    ((q [alarm 0 .waiting, told]).deliver 1000 told).queueOverflow = false := by
  refine ⟨queueSound_sound (by decide), queueSound_sound (by decide), ?_⟩; decide

/-- `TickCompletes`, `StoredTimesComplete`: a lead whose not-before time is the new time; the claim is placed (R27, R40,
R101). -/
theorem test_lead_is_placed :
    let s := withRecords [{ alarm 0 .waiting with notBefore := 1001 }] station
    let u : State := { s with time := 1001 }
    s.queue.Sound ∧ s.loader.inReset = false ∧ s.call = CallEngine.idle ∧ s.loader.configFault = false ∧ s.lead = none ∧
    u.lead = some { alarm 0 .waiting with notBefore := 1001 } ∧
    candidate u.view.entries u.solo 0 = some (.l0, .free) ∧
    (after .stationTimeTick s).call.line = some .l0 ∧ (after .notBeforePasses u).call.line = some .l0 ∧
    ((after .stationTimeTick s).entry .l0).ownKey = some 949 := by
  refine ⟨queueSound_sound (by decide), ?_⟩; decide +kernel

/-- The next-offer time, in a call of a station with a record due for an offer (R146, R147). -/
theorem test_next_offer :
    let r : Record := { alarm 1 .waiting with
      kind := .own ⟨9, .alarm, 953, 1000⟩, order := 1, source := 2, attempts := 4 }
    let s := withRecords [alarm 2 .inCall, r] (calling .send (some .symbols))
    s.queue.Sound ∧ s.call.state ≠ .idle ∧ s.offerable = some r ∧
    (after .nextOfferTimePasses s).carry.offer = some ⟨9, 1024 + 32 * 29 + 16 + 5, .owed⟩ := by
  refine ⟨queueSound_sound (by decide), ?_⟩; decide +kernel

/-- `StoredTimesComplete`: a station with no line and no number has no lead and offers its record; one second early it does
not (R27, R146). -/
theorem test_zone_only_station :
    let r : Record := { alarm 1 .waiting with kind := .own ⟨9, .alarm, 953, 1000⟩ }
    let s : State := { withRecords [r] station with
      view := LineView.reset
      loader := { station.loader with settings := { station.loader.settings with number1 := [] } } }
    s.queue.Sound ∧ s.call.state = .idle ∧ s.lead = none ∧ s.offerable = some r ∧
    (after .nextOfferTimePasses s).carry.offer = some ⟨9, 1024 + 32 * 29 + 16 + 5, .owed⟩ ∧
    (after .nextOfferTimePasses s).call = CallEngine.idle ∧ ({ s with time := 999 } : State).offerable = none := by
  refine ⟨queueSound_sound (by decide), ?_⟩; decide +kernel

/-- 15 minutes HANDED, and one second less (R153). -/
theorem test_carry_timeout :
    let s := fun since => withRecords [alarm 0 (.handed 3 since)] (calling .claim none)
    (s 100).queue.findSeq 7 = some (alarm 0 (.handed 3 100)) ∧
    (after (.carryTimeout 7) (s 100)).queue.records.map Record.waiting = [true] ∧
    (after (.carryTimeout 7) (s 101)).queue.records.map Record.waiting = [false] := by decide +kernel

/-- A peer's claim pending on L0. -/
def contested (holder : Option Holder) (p : Pending) : State :=
  withLine .l0 (fun e => { e with holder := holder, pending := some p }) station

/-- `PeerTimersComplete`: with no holder, with one, and the yield limit (R106). -/
theorem test_pending_guards :
    ((after (.pendingGuardPasses .l0) (contested none ⟨3, 1011, false, false⟩)).entry .l0).holder = some ⟨3, 1011⟩ ∧
    ((after (.pendingGuardPasses .l0) (contested (some ⟨9, 3000⟩) ⟨3, 1011, false, false⟩)).entry .l0).pending
      = some ⟨3, 1011, true, true⟩ ∧
    ((after (.yieldLimitExpiry .l0) (contested (some ⟨9, 3000⟩) ⟨3, 1011, true, true⟩)).entry .l0).holder
      = some ⟨3, 1011⟩ := by decide +kernel

/-- Station 5 in CLAIM with own-guard-done, waiting on a holder. -/
def waitingOn (fastReady : Bool) : State :=
  withLine .l0 (fun e => { e with holder := some ⟨9, 6000⟩, onHookTimer := true })
    { calling .claim none with
      call := { (calling .claim none).call with fastReady := fastReady, guardDone := false } }

/-- `PeerTimersComplete`, `OwnClaimBecomesReady`: a claim that waits on a holder becomes ready (R112, R126). -/
theorem test_waiting_claim :
    (waitingOn true).LineSound ∧ ((waitingOn true).entry .l0).onHookTimer = true ∧
    ((waitingOn true).entry .l0).waitingOnHolder = true ∧ (waitingOn true).call.state = .claim ∧
    (after (.peerIdleLimit .l0) (waitingOn true)).call.state = .seize ∧
    (after .yieldWaitExpiry (waitingOn true)).call.hook.get .l0 = true ∧ (waitingOn false).LineSound ∧
    (after .yieldWaitExpiry (waitingOn false)).call.guardDone = true ∧
    (after (.peerIdleLimit .l0) (withLine .l0 (fun e => { e with holder := some ⟨9, 6000⟩, onHookTimer := true })
      station)).view = station.view := by
  refine ⟨lineSound_sound (by decide), by decide, by decide, by decide, by decide +kernel, by decide +kernel,
    lineSound_sound (by decide), by decide +kernel, by decide +kernel⟩

/-- The own guard passes, with no holder and with one (R104). -/
theorem test_own_guard :
    (claiming .running).LineSound ∧ ((claiming .running).entry .l0).ownGuard = .running ∧
    (after .ownGuardPasses (claiming .running)).call.guardDone = true ∧
    (after .ownGuardPasses (withLine .l0 (fun e => { e with holder := some ⟨9, 6000⟩ }) (claiming .running))).call
      = (claiming .running).call := by
  refine ⟨lineSound_sound (by decide), by decide, by decide +kernel, by decide +kernel⟩

/-- `WireConditionsComplete`: joining, going idle, hearing a frame begin, ending a suspend, starting the lowest frame,
its start-of-frame bit read back as it was sent and otherwise. -/
theorem test_wire_conditions :
    let busy : State := { station with rbc := { station.rbc with recessiveRun := 3 } }
    let suspended : State := { station with rbc := { station.rbc with suspend := true } }
    let loaded : State := { station with rbc := { station.rbc with slots :=
      [⟨.state, stateFrame 5 false State.reset.faults 0 0 (Four.const .usable), 0, false, false⟩,
       ⟨.object .l0, objectFrame 949 .l0 true, 0, false, false⟩] } }
    (after .joinPeriodEnd { station with rbc := { station.rbc with join := .running } }).rbc.join = .passed ∧
    busy.rbc.sendingSlot = none ∧ (after (.busIdle (List.replicate 8 true)) busy).rbc.recessiveRun = 11 ∧
    after (.busIdle (List.replicate 7 true)) busy = busy ∧
    (busy.rbc.readBits [true, false, false]).dominantRun = 2 ∧
    (after .startOfFrameReceived station).rbc.receiving = true ∧
    (after .passiveSuspendEnd suspended).rbc.recessiveRun = 19 ∧
    loaded.rbc.busOff = false ∧ (after .frameStart loaded).rbc.slots.map Slot.sending = [false, true] ∧
    ((after .frameStart loaded).rbc.dominantRun, (after (.frameStart true) loaded).rbc.recessiveRun) = (1, 12) := by
  decide +kernel

/-- The bits of a frame after its start-of-frame bit, with one of the eight CRC bits wrong. -/
def wrongCheck (f : Frame) (n : Nat) : List Bool :=
  (stuff (false :: f.body ++ bitsOf 8 ((crc f.body).toNat ^^^ 2 ^ n))).tail

/-- `LostFramesComplete`: where a receiver drives the ACK slot and where it finds which error, in a CLAIM and in the frame of
zeros that has the most bits inserted; and none of it in BUS_OFF or STUCK but the error (R77, R81, R83, R89, R90). -/
theorem test_receiver :
    let f := claimFrame 949 .l0 true
    let zeros : Frame := ⟨.object, 0, [0, 0]⟩
    let b := (receiving station).rbc
    WholeRegion f.body (bitsOf 8 (crc f.body).toNat) f.afterStart ∧
    WholeRegion f.body (bitsOf 8 ((crc f.body).toNat ^^^ 1)) (wrongCheck f 0) ∧
    b.drivesAck f.afterStart = true ∧ b.drivesAck zeros.afterStart = true ∧ b.drivesAck (f.afterStart.dropLast) = false ∧
    ((receiving station).terminals f.afterStart).drivesAck = true ∧
    (List.range 8).all (fun n => !b.drivesAck (wrongCheck f n)) = true ∧
    ({ b with txErrors := 192 } : Rbc).drivesAck f.afterStart = false ∧
    ({ b with stuck := true } : Rbc).drivesAck f.afterStart = false ∧
    b.findsError .check (wrongCheck f 0 ++ [false]) = true ∧ b.findsError .check (f.afterStart ++ [false]) = false ∧
    b.findsError .check (f.afterStart.take 9) = false ∧ b.findsError .form (f.afterStart.take 9) = false ∧
    b.findsError .form (zeros.afterStart.take 5 ++ [false]) = true ∧
    b.findsError .form (zeros.afterStart.take 4 ++ [false]) = false ∧
    (List.range 9).all (fun n => b.findsError .form (f.afterStart ++ false :: List.replicate n true ++ [false])) = true ∧
    b.findsError .form (f.afterStart ++ false :: List.replicate 9 true ++ [false]) = false := by
  refine ⟨⟨⟨.claim, by decide +kernel, by decide +kernel⟩, by decide +kernel, by decide +kernel⟩,
    ⟨⟨.claim, by decide +kernel, by decide +kernel⟩, by decide +kernel, by decide +kernel⟩, ?_⟩
  decide +kernel

/-- `LostFramesComplete`: a received frame discarded at its seventh dominant bit and at its ACK slot, and arbitration lost,
with what the winner's frame then holds against the bits already read (R75, R80, R84, R87). -/
theorem test_lost_frames :
    let f := objectFrame 949 .l0 true
    let g := claimFrame 949 .l0 true
    let won := objectFrame 947 .l0 true
    let s := sending (.object .l0) f station
    (receiving station).rbc.findsError .form (List.replicate 6 false) = true ∧
    (after (.receiveError .form (List.replicate 6 false)) (receiving station)).rbc.dominantRun = 15 ∧
    (after (.receiveError .check (wrongCheck g 0 ++ [true])) (receiving station)).rbc.rxErrors = 1 ∧
    (after (.receiveError .check (wrongCheck g 0 ++ [false]) 0xFF) (receiving station)).rbc.recessiveRun = 8 ∧
    after (.receiveError .check (g.afterStart ++ [true])) (receiving station) = receiving station ∧
    after (.receiveError .bit [true]) (receiving station) = receiving station ∧
    s.rbc.sendingSlot = some ⟨.object .l0, f, 0, false, true⟩ ∧ f.lostBy (lostAt 7 f) = true ∧
    (after (.arbitrationLost (lostAt 7 f)) s).rbc.slots = [⟨.object .l0, f, 0, false, false⟩] ∧
    (after (.arbitrationLost (lostAt 7 f)) s).rbc.receiving = true ∧
    let lost := won.afterStart.take 15
    f.lostBy lost = true ∧ (after (.arbitrationLost lost) s).rbc.drivesAck (won.afterStart.drop 15) = true ∧
    (after (.arbitrationLost lost) s).rbc.drivesAck won.afterStart = false := by decide +kernel

/-- `TransmitErrorCompletes`, and the rows of Table 5-6 for frames 1, 6 and 7: 16 to 24 and SENT_UNHEARD, 120 to 128, 128
unchanged; and TEC at 192 enters BUS_OFF, whose bus trouble timer runs (R11, R86, R89). After the recessive ACK slot an
active station sends eight dominant bits, and a passive one has read nine recessive ones more (R84, R85). A start-of-frame
bit that reads recessive is a BIT error (R83). -/
theorem test_transmit_errors :
    let f := objectFrame 949 .l0 true
    let s := fun tec unacked => ({ sending (.object .l0) f station with rbc := {
      (sending (.object .l0) f station).rbc with
        txErrors := tec
        slots := [⟨.object .l0, f, unacked, false, true⟩] } } : State)
    let loaded : State := { station with rbc := { station.rbc with slots := [⟨.object .l0, f, 0, false, false⟩] } }
    let begun := after (.frameStart true) loaded
    loaded.rbc.mayStart = true ∧ begun.rbc.sendingSlot = some ⟨.object .l0, f, 0, false, true⟩ ∧
    (after (.transmitError .bit []) begun).rbc.txErrors = 8 ∧
    (after (.transmitError .bit []) begun).rbc.slots.map Slot.sending = [false] ∧
    after (.transmitError .bit (lostAt 20 f)) begun = begun ∧
    (after (.transmitError .bit (lostAt 20 f) 0xFF) (s 0 0)).rbc.dominantRun = 0 ∧
    (after (.transmitError .ack (unheard 0 f)) (s 16 2)).rbc.txErrors = 24 ∧
    (after (.transmitError .ack (unheard 0 f)) (s 16 2)).rbc.slots = [] ∧
    (after (.transmitError .ack (unheard 0 f)) (s 16 2)).rbc.dominantRun = 8 ∧
    (after (.transmitError .ack (unheard 0 f)) (s 120 0)).rbc.confinement = .passive ∧
    (after (.transmitError .ack (unheard 9 f)) (s 128 1)).rbc.txErrors = 128 ∧
    10 ≤ (after (.transmitError .ack (unheard 9 f)) (s 128 1)).rbc.recessiveRun ∧
    (after (.transmitError .ack (unheard 9 f)) (s 128 1)).rbc.slots.map Slot.unacked = [2] ∧
    (after (.transmitError .form (f.afterStart ++ [false, true, false])) (s 8 0)).rbc.txErrors = 16 ∧
    (s 184 0).rbc.busOff = false ∧ (s 184 0).rbc.losesAttempt .bit f (lostAt 20 f) = true ∧
    (after (.transmitError .bit (lostAt 20 f)) (s 184 0)).rbc.busOff = true ∧
    (after (.transmitError .bit (lostAt 20 f)) (s 184 0)).zone.busTimer = true := by decide +kernel

/-- `SoloModeBeginsAndEnds` (R11, R89, R90, R116). -/
theorem test_solo_mode :
    let stuck : State := { station with
      rbc := { station.rbc with stuck := true }
      zone := { station.zone with busTrouble := true } }
    let off : State := { station with rbc := { station.rbc with txErrors := 192, recessiveRun := 2040, recovery := 2040 } }
    (after .stuckEntry station).solo = true ∧ (after .stuckEntry station).zone.busTimer = true ∧
    (after .stuckExit stuck).solo = false ∧ (after .stuckExit stuck).queue.records.map Record.source = [97] ∧
    (after .stuckExit { stuck with rbc := { stuck.rbc with txErrors := 192 } }).solo = true ∧
    (after (.busOffRecovery (List.replicate 8 true)) off).rbc.recessiveRun = 2048 ∧ off.rbc.stuck = false ∧
    off.rbc.busOff = true ∧ off.rbc.Sound ∧ (off.rbc.readBits (List.replicate 8 true)).recovery = 2048 ∧
    (after (.busOffRecovery (List.replicate 8 true)) off).rbc.confinement = .active := by
  refine ⟨by decide, by decide, by decide, by decide, by decide, by decide +kernel, by decide, by decide,
    ⟨by decide, by decide, by decide, by decide, by decide⟩, ?_⟩
  decide +kernel

/-- `SoloModeTreatsTheClaim`: a placed claim is ready, or, from tier 4, placed on the free L1; a guarding one is ready, or
waits on a holder; a call past CLAIM goes on (R117). -/
theorem test_claim_into_solo :
    let fourth := withLine .l0 (fun e => { e with tier := some .overHolder, holder := some ⟨9, 6000⟩ }) (claiming .absent)
    let f := objectFrame 949 .l0 true
    let failing := sending (.object .l0) f { claiming .absent with rbc := { station.rbc with txErrors := 184 } }
    (claiming .absent).LineSound ∧ (claiming .absent).queue.Sound ∧ (claiming .absent).solo = false ∧
    ((claiming .absent).entry .l0).placed = true ∧ (after .stuckEntry (claiming .absent)).call.guardDone = true ∧
    failing.rbc.losesAttempt .bit f (lostAt 20 f) = true ∧
    (after (.transmitError .bit (lostAt 20 f)) failing).call.guardDone = true ∧
    (after .stuckEntry fourth).call.line = some .l1 ∧
    (after .stuckEntry (withLine .l1 (fun _ => Entry.reset) fourth)).call = CallEngine.idle ∧
    (after .stuckEntry (claiming .running)).call.guardDone = true ∧
    ((after .stuckEntry (withLine .l0 (fun e => { e with holder := some ⟨9, 6000⟩ }) (claiming .running))).call.guardDone
      = false) ∧
    (after .stuckEntry (calling .send (some .symbols))).call = (calling .send (some .symbols)).call := by
  refine ⟨lineSound_sound (by decide), queueSound_sound (by decide), ?_⟩; decide +kernel

/-- `FramesAppliedNowhere`: a frame from this station's own address, and frames out of each range of Table 5-5. -/
theorem test_frames_applied_nowhere :
    let s := receiving station
    let unheeded := fun (c : Instr) f => after c s = s.heard f true
    s.Hears 7171 ∧ s.rbc.receiving = true ∧ s.address = 5 ∧ senderOf 949 = 5 ∧
    (after (.claimReceived 949 1 true) s).ind.addressClash = true ∧
    unheeded (.claimReceived 7171 0 true) (receivedFrame .claim 7171 (0 : BitVec 8)) ∧
    unheeded (.claimReceived 3 4 true) (receivedFrame .claim 3 (4 : BitVec 8)) ∧
    unheeded (.claimReceived 16 0 true) (receivedFrame .claim 16 (0 : BitVec 8)) ∧
    unheeded (.objectReceived 3 3 true) (receivedFrame .object 3 (3 : BitVec 16)) ∧
    unheeded (.releaseReceived 19 1 true) (receivedFrame .release 19 (1 : BitVec 16)) ∧
    unheeded (.offerReceived 7171 0 true) (receivedFrame .offer 7171 (0 : BitVec 8)) ∧
    unheeded (.acceptReceived 1027 0x0507 true) (receivedFrame .accept 1027 (0x0507 : BitVec 16)) ∧
    unheeded (.carryReceived 3 0 true) (receivedFrame .carry 3 (0 : BitVec 72)) ∧
    unheeded (.outcomeReceived 3 0x050703 true) (receivedFrame .outcome 3 (0x050703 : BitVec 24)) ∧
    unheeded (.stateReceived 3 0x00190000 true) (receivedFrame .state 3 (0x00190000 : BitVec 32)) := by
  refine ⟨hears_of (by decide) (by decide), ?_⟩; decide +kernel

/-- `ObservedClaimCompletes`: recorded, in place of one it qualifies against, against the same peer's holding, and not
against one it does not qualify against (R105). Key 1011 is station 3's, of class 0; 1033 station 9's, of class 1; 3001
station 9's, of class 2. -/
theorem test_observed_claims :
    let s := fun holder pending =>
      receiving (withLine .l0 (fun e => { e with holder := holder, pending := pending }) station)
    (s none none).Hears 1011 ∧ readClaim 1011 0 = some ⟨3, 1011, .l0⟩ ∧ ((s none none).entry .l0).wired = true ∧
    ((s none none).entry .l0).own = false ∧
    ((after (.claimReceived 1011 0 true) (s none none)).entry .l0).pending = some ⟨3, 1011, false, false⟩ ∧
    ((after (.claimReceived 1011 0 true) (s none (some ⟨9, 3001, true, true⟩))).entry .l0).pending
      = some ⟨3, 1011, false, false⟩ ∧
    ((after (.claimReceived 1011 0 true) (s none (some ⟨9, 1033, true, true⟩))).entry .l0).pending
      = some ⟨9, 1033, true, true⟩ ∧
    ((after (.claimReceived 1011 0 true) (s (some ⟨3, 4000⟩) none)).entry .l0).holder = none := by
  refine ⟨hears_of (by decide) (by decide), ?_⟩; decide +kernel

/-- `ContestedLineIsDefendedOrYielded`: against the own key 2965 of class 2, key 1011 of class 0 qualifies and key 2051 of
class 2 does not (R107, R111). -/
theorem test_contested_line :
    let s := receiving (calling .dial (some .digit))
    s.Hears 1011 ∧ s.Hears 2051 ∧ s.LineSound ∧ readClaim 1011 0 = some ⟨3, 1011, .l0⟩ ∧ s.call.line = some .l0 ∧
    (s.entry .l0).ownKey = some 2965 ∧ s.call.yieldPending = false ∧
    ((after (.claimReceived 1011 0 true) (withLine .l0 (fun e => { e with holder := some ⟨3, 6000⟩ }) s)).entry .l0).holder
      = none ∧
    (after (.claimReceived 1011 0 true) s).call.outcome = some .preempted ∧
    (after (.claimReceived 1011 0 true) (receiving (calling .send (some .symbols)))).call.yieldPending = true ∧
    (after (.claimReceived 1011 0 true) (receiving (calling .send (some .symbols)))).call.state = .send ∧
    readClaim 2051 0 = some ⟨3, 2051, .l0⟩ ∧
    (after (.claimReceived 2051 0 true) s).rbc.owes (.object .l0) = true ∧
    (after (.claimReceived 1011 0 true) s).rbc.owes (.release .l0 .preempted) = true ∧
    (after (.claimReceived 1011 0 true) s).queue.records = [alarm 2 .waiting] ∧
    (after (.claimReceived 1011 0 true) { s with rbc := { s.rbc with txErrors := 192 } }).call.outcome = some .preempted ∧
    (after (.claimReceived 1011 0 true) { s with rbc := { s.rbc with txErrors := 192 } }).rbc.owes (.release .l0 .preempted)
      = false := by
  refine ⟨hears_of (by decide) (by decide), hears_of (by decide) (by decide), lineSound_sound (by decide), ?_⟩; decide +kernel

/-- `PlacedClaimIsSurrendered`: L0 in the placed phase, with L1 free, and as the only line (R102, R103). -/
theorem test_surrender :
    let two := receiving (claiming .absent)
    let s := receiving (withLine .l1 (fun _ => Entry.reset) (claiming .absent))
    let recorded := fun (u : State) => u.view.entries.set .l0 ((u.entry .l0).others.observeClaim 3 1011)
    s.Hears 1011 ∧ s.LineSound ∧ two.LineSound ∧ s.queue.Sound ∧ readClaim 1011 0 = some ⟨3, 1011, .l0⟩ ∧
    s.call.line = some .l0 ∧ s.call.state = .claim ∧ (s.entry .l0).placed = true ∧
    s.callLead = some (alarm 2 .inCall) ∧ (∀ x ∈ s.queue.records, x.state = .inCall → x = alarm 2 .inCall) ∧
    candidate (recorded s) s.solo 0 = none ∧ (after (.claimReceived 1011 0 true) s).call = CallEngine.idle ∧
    two.mayCall 2 = true ∧ two.canDial = true ∧ candidate (recorded two) two.solo 2 = some (.l1, .free) ∧
    (after (.claimReceived 1011 0 true) two).call.line = some .l1 ∧
    ((after (.claimReceived 1011 0 true) two).entry .l1).ownKey = some 2997 := by
  refine ⟨hears_of (by decide) (by decide), lineSound_sound (by decide), lineSound_sound (by decide),
    queueSound_sound (by decide), ?_⟩
  decide +kernel

/-- `PlacedClaimIsSurrendered`, `ObjectReceivedCompletes`: a lead of class 3 with no other record of its report is given up
likewise, L0 being the only line (R25, R102). -/
theorem test_third_class_is_given_up :
    let s := receiving (withLine .l1 (fun _ => Entry.reset) (withRecords [alarm 3 .inCall] (claiming .absent)))
    let left := s.view.entries.set .l0 ((s.entry .l0).others.observeClaim 3 1011)
    s.queue.Sound ∧ s.callLead = some (alarm 3 .inCall) ∧
    (∀ w ∈ s.queue.records, w ≠ alarm 3 .inCall → w.waiting = true → (alarm 3 .inCall).sameReport w = false) ∧
    candidate left s.solo 0 = none ∧ (after (.claimReceived 1011 0 true) s).queue.records = [alarm 3 .waiting] ∧
    (after (.claimReceived 1011 0 true) s).call = CallEngine.idle ∧
    (after (.objectReceived 1011 2 true) s).queue.records = [alarm 3 .waiting] := by
  refine ⟨queueSound_sound (by decide), ?_⟩; decide +kernel

/-- `ObjectSetsTheHolder`, `ObjectReceivedCompletes`: at an observer, in SEND, in DIAL, and in CLAIM, guarding, with L1 free
and with no other line (R102, R109, R110). -/
theorem test_objections :
    let s := receiving (calling .dial (some .digit))
    let guarding := receiving (claiming .running)
    s.Hears 1011 ∧ s.LineSound ∧ guarding.LineSound ∧ guarding.queue.Sound ∧ readObject 1011 2 = some ⟨3, 1011, .l0⟩ ∧ (s.entry .l0).wired = true ∧
    (s.entry .l0).own = true ∧ ((receiving station).entry .l0).own = false ∧
    ((after (.objectReceived 1011 2 true) (receiving station)).entry .l0).holder = some ⟨3, 1011⟩ ∧
    (after (.objectReceived 1011 2 true) s).call.outcome = some .abandoned ∧
    (after (.objectReceived 1011 2 true) (receiving (calling .send (some .symbols)))).call.state = .send ∧
    guarding.callLead = some (alarm 2 .inCall) ∧ (after (.objectReceived 1011 2 true) guarding).call.line = some .l1 ∧
    (after (.objectReceived 1011 2 true) (withLine .l1 (fun _ => Entry.reset) guarding)).call = CallEngine.idle := by
  refine ⟨hears_of (by decide) (by decide), lineSound_sound (by decide), lineSound_sound (by decide),
    queueSound_sound (by decide), ?_⟩; decide +kernel

/-- `ReleaseReceivedCompletes`: of the holder with a pending claim whose guard has passed and without one, of the pending
claimant, stale, and of the holder that this station's claim waits on (R63, R112, R114). -/
theorem test_releases :
    let s := fun holder pending =>
      receiving (withLine .l0 (fun e => { e with holder := holder, pending := pending }) station)
    (s none none).Hears 9 ∧ readRelease 9 1 = some ⟨9, .l0, .done⟩ ∧
    ((after (.releaseReceived 9 1 true) (s (some ⟨9, 6000⟩) none)).entry .l0).holder = none ∧
    ((after (.releaseReceived 9 1 true) (s (some ⟨9, 6000⟩) (some ⟨3, 1011, true, true⟩))).entry .l0).holder
      = some ⟨3, 1011⟩ ∧
    ((after (.releaseReceived 9 1 true) (s none (some ⟨9, 6000, false, false⟩))).entry .l0).pending = none ∧
    ((after (.releaseReceived 9 1 true) (s (some ⟨3, 1011⟩) none)).entry .l0).holder = some ⟨3, 1011⟩ ∧
    ((receiving (waitingOn false)).entry .l0).waitingOnHolder = true ∧
    (after (.releaseReceived 9 1 true) (receiving (waitingOn false))).call.guardDone = true := by
  refine ⟨hears_of (by decide) (by decide), ?_⟩; decide +kernel

/-- A call of station 5 with its offer of seq 7 in a phase. -/
def offering (phase : OfferPhase) : State :=
  { withRecords [alarm 0 (.offered 990)] (calling .claim none) with carry := ⟨some ⟨7, 949, phase⟩, none, []⟩ }

/-- `OfferAndAcceptReceivedComplete` (R49, R149, R154, R155). Key 1011 is station 3's. -/
theorem test_offers_and_accepts :
    let s := receiving station
    let bidding : State := { s with carry := ⟨none, some ⟨3, 7, 5⟩, []⟩ }
    s.Hears 1011 ∧ (receiving (offering .window)).Hears 9 ∧ readOffer 1011 7 = some ⟨3, 7⟩ ∧
    (s.heard (receivedFrame .offer 1011 (7 : BitVec 8)) true).eligible = true ∧ s.carry.accept = none ∧
    s.view.bestScore = some 0 ∧ (after (.offerReceived 1011 7 true) s).carry.accept = some ⟨3, 7, 5⟩ ∧
    (after (.offerReceived 1011 7 true) bidding).carry.accept = some ⟨3, 7, 5⟩ ∧
    readAccept 9 0x0507 = some ⟨9, 5, 7⟩ ∧
    (after (.acceptReceived 9 0x0507 true) (receiving (offering .window))).carry.offer = some ⟨7, 949, .carrying 9⟩ ∧
    (after (.acceptReceived 9 0x0507 true) (receiving (offering .owed))).carry.offer = some ⟨7, 949, .owed⟩ ∧
    readAccept 9 0x0307 = some ⟨9, 3, 7⟩ ∧ (after (.acceptReceived 9 0x0307 true) bidding).carry.accept = none := by
  refine ⟨hears_of (by decide) (by decide), hears_of (by decide) (by decide), ?_⟩; decide +kernel

/-- `CarryReceivedCompletes`: a new OUTCOME in place of its twin, beside a twin that is in a slot, and, with 16 in the list, in
place of the oldest in no slot (R157). -/
theorem test_outcome_list :
    let c := fun l => (⟨none, none, l⟩ : CarryUnit)
    let sixteen := (List.range 16).map fun n => (⟨9, BitVec.ofNat 8 n, .returned, decide (n = 0)⟩ : OutcomeEntry)
    ((c [⟨9, 7, .returned, false⟩, ⟨3, 1, .returned, false⟩]).addOutcome 9 7 .delivered).outcomes
      = [⟨9, 7, .delivered, false⟩, ⟨3, 1, .returned, false⟩] ∧
    ((c [⟨9, 7, .returned, true⟩]).addOutcome 9 7 .delivered).outcomes
      = [⟨9, 7, .returned, true⟩, ⟨9, 7, .delivered, false⟩] ∧
    sixteen.length = 16 ∧ (sixteen.filter OutcomeEntry.inSlot).length ≤ 3 ∧
    ((c sixteen).addOutcome 3 0 .returned).outcomes.map (fun e => (e.origin, e.seq.toNat))
      = (9, 0) :: (List.range 14).map (fun n => (9, n + 2)) ++ [(3, 0)] := by decide +kernel

/-- A CARRY from station 9 to station 5: seq 7, account 118306, class 1, NEW, source 02, repeat 3, grade 4. -/
def carryPayload : BitVec 72 := 0x050711830611020304

/-- The fields it reads to. -/
def carryRead : CarryFields := ⟨9, 5, 7, 0x118306, 1, .new, 2, 3, 4⟩

/-- `CarryReceivedCompletes`: taken in, a duplicate, no room, addressed elsewhere, and the end of a bid (R155, R156). -/
theorem test_carries :
    let s := receiving (calling .claim none)
    let held : State := after (.carryReceived 9 carryPayload true) s
    let packed : State := { s with queue := full 4 }
    s.Hears 9 ∧ readCarry 9 carryPayload = some carryRead ∧ s.address = 5 ∧ s.queue.count < 24 ∧
    s.queue.carriedCount < 8 ∧ held.queue.records.length = 2 ∧
    (after (.carryReceived 9 carryPayload true) (receiving held)).queue.records.length = 2 ∧ packed.queue.count = 24 ∧
    (after (.carryReceived 9 carryPayload true) packed).carry.outcomes.map (fun e => (e.origin, e.seq, e.result))
      = [(9, 7, .returned)] ∧
    (after (.carryReceived 9 0x060711830611020304 true) s).queue.records.length = 1 ∧
    (after (.carryReceived 9 0x060711830611020304 true) { s with carry := ⟨none, some ⟨9, 7, 5⟩, []⟩ }).carry.accept = none ∧
    (after (.carryReceived 9 carryPayload true) { s with carry := ⟨none, some ⟨9, 7, 5⟩, []⟩ }).queue.carriedCount = 1 := by
  refine ⟨hears_of (by decide) (by decide), ?_⟩; decide +kernel

/-- `OutcomeReceivedCompletes`: DELIVERED and RETURNED from the carrier, RETURNED from another, DELIVERED for a record
IN_CALL and one OFFERED, its OFFER sent or still owed, and a seq that no own record holds (R35, R151, R152). -/
theorem test_outcomes :
    let s := fun st => receiving (withRecords [alarm 0 st] (calling .claim none))
    let owed := receiving { offering .owed with rbc := { station.rbc with owed := [.offer 7 949] } }
    (s (.handed 9 990)).Hears 9 ∧ (s (.handed 9 990)).queue.Sound ∧ readOutcome 9 0x050701 = some ⟨9, 5, 7, .delivered⟩ ∧
    readOutcome 9 0x050702 = some ⟨9, 5, 7, .returned⟩ ∧
    (s (.handed 9 990)).queue.findSeq 7 = some (alarm 0 (.handed 9 990)) ∧
    (after (.outcomeReceived 9 0x050701 true) (s (.handed 9 990))).queue.records = [] ∧
    (after (.outcomeReceived 9 0x050702 true) (s (.handed 9 990))).queue.records.map Record.waiting = [true] ∧
    (after (.outcomeReceived 9 0x050702 true) (s (.handed 3 990))).queue.records.map Record.waiting = [false] ∧
    (after (.outcomeReceived 9 0x050701 true) (s .inCall)).queue.records.length = 1 ∧
    (after (.outcomeReceived 9 0x050701 true) (receiving (offering .window))).carry.offer = none ∧
    owed.rbc.sendingSlot = none ∧ (after (.outcomeReceived 9 0x050701 true) owed).carry.offer = none ∧
    (after (.outcomeReceived 9 0x050701 true) owed).rbc.owes (.offer 7 949) = false ∧
    (after (.outcomeReceived 9 0x050801 true) (s .inCall)).queue.records.length = 1 ∧
    (let failing := { s (.handed 9 990) with queue := { (s (.handed 9 990)).queue with commFail := true } }
     (after (.outcomeReceived 9 0x050701 true) failing).queue.records.map (fun r => (r.source, r.cls)) = [(96, 5)] ∧
     (after (.outcomeReceived 9 0x050701 true) failing).queue.commFail = false) := by
  refine ⟨hears_of (by decide) (by decide), queueSound_sound (by decide), ?_⟩; decide +kernel

/-- `StateReceivedCompletes`: a fresh start of station 9, and a STATE without the mark (R159). -/
theorem test_states :
    let s : State := { after (.carryReceived 9 carryPayload true) (receiving (calling .claim none)) with
      carry := ⟨none, some ⟨9, 7, 5⟩, [⟨9, 1, .returned, false⟩]⟩ }
    (receiving s).Hears 9 ∧ readState 9 0x80000000 = some ⟨9, true⟩ ∧ readState 9 0 = some ⟨9, false⟩ ∧
    (after (.stateReceived 9 0x80000000 true) (receiving s)).carry = ⟨none, none, []⟩ ∧
    (after (.stateReceived 9 0 true) (receiving s)).carry.accept = some ⟨9, 7, 5⟩ := by
  refine ⟨hears_of (by decide +kernel) (by decide +kernel), ?_⟩; decide +kernel

/-- A station with one frame on the wire that two attempts have left unacknowledged. -/
def thirdTry (m : Marker) (f : Frame) (s : State) : State :=
  { s with rbc := { s.rbc with recessiveRun := 0, dominantRun := 1, slots := [⟨m, f, 2, false, true⟩] } }

/-- A frame sent, by its own row. -/
theorem ends_acked (m : Marker) (f : Frame) (s : State) (c : Instr) :
    (sending m f s).Ends ⟨m, f, 0, false, true⟩ f.type c c (sending m f s).rbc.afterSent := .inl ⟨rfl, rfl, rfl⟩

/-- A frame that its third attempt leaves unheard. -/
theorem ends_unheard (m : Marker) (f : Frame) (s : State) (c : Instr) (hs : s.rbc.stuck = false)
    (h : (thirdTry m f s).rbc.losesAttempt .ack f (unheard 0 f) = true) :
    (thirdTry m f s).Ends ⟨m, f, 2, false, true⟩ f.type c (.transmitError .ack (unheard 0 f))
      ((thirdTry m f s).rbc.afterUnheard (unheard 0 f) 0) := .inr ⟨_, _, rfl, hs, Nat.le_refl 2, h, rfl⟩

/-- The state after a frame's third attempt ends unheard. -/
def afterUnheard (m : Marker) (f : Frame) (s : State) : State := after (.transmitError .ack (unheard 0 f)) (thirdTry m f s)

/-- `LineFramesSentComplete`: the own CLAIM acknowledged, and at its third ACK error; an OBJECT; a RELEASE (R82, R104, R108,
R113). -/
theorem test_line_frames_sent :
    let s := claiming .absent
    let claim := claimFrame 2965 .l0 false
    let object := objectFrame 949 .l0 true
    let release := releaseFrame 5 .l0 .done
    s.call.state = .claim ∧ (s.entry .l0).placed = true ∧ (s.entry .l0).ownKey = some 2965 ∧
    ((after .claimSent (sending (.claim .l0 2965 false) claim s)).entry .l0).ownGuard = .running ∧
    ((afterUnheard (.claim .l0 2965 false) claim s).entry .l0).ownGuard = .running ∧
    (after .objectSent (sending (.object .l0) object station)).rbc.slots = [] ∧
    (afterUnheard (.object .l0) object station).rbc.slots = [] ∧
    (after .releaseSent (sending (.release .l0 .done) release station)).rbc.slots = [] ∧
    (afterUnheard (.release .l0 .done) release station).rbc.slots = [] := by decide +kernel

/-- `CarryFramesSentComplete`: OFFER, ACCEPT, CARRY, OUTCOME and STATE, acknowledged and at the third ACK error (R82, R147,
R150, R155, R157, R175). -/
theorem test_carry_frames_sent :
    let bidding : State := { station with carry := ⟨none, some ⟨3, 7, 5⟩, []⟩ }
    let owing : State := { station with carry := ⟨none, none, [⟨9, 7, .returned, true⟩]⟩ }
    let fresh : State := { station with ind := { station.ind with freshMark := true } }
    let carry := carryFrame 1000 5 9 0 7 (alarm 0 (.offered 990))
    let status := stateFrame 5 true State.reset.faults 0 0 (Four.const .usable)
    let handed := fun s : State => s.queue.records.map Record.state = [.handed 9 1000]
    (offering .owed).queue.Sound ∧ (offering (.carrying 9)).queue.findSeq 7 = some (alarm 0 (.offered 990)) ∧
    (after .offerSent (sending (.offer 7 949) (offerFrame 949 7) (offering .owed))).carry.offer = some ⟨7, 949, .window⟩ ∧
    (afterUnheard (.offer 7 949) (offerFrame 949 7) (offering .owed)).carry.offer = some ⟨7, 949, .window⟩ ∧
    (after .acceptSent (sending (.accept 3 7 5) (acceptFrame 5 3 7) bidding)).carry.accept = some ⟨3, 7, 5⟩ ∧
    (afterUnheard (.accept 3 7 5) (acceptFrame 5 3 7) bidding).carry.accept = some ⟨3, 7, 5⟩ ∧
    handed (after .carrySent (sending (.carry 7 9) carry (offering (.carrying 9)))) ∧
    handed (afterUnheard (.carry 7 9) carry (offering (.carrying 9))) ∧
    (after .outcomeSent (sending (.outcome 9 7 .returned) (outcomeFrame 5 9 7 .returned) owing)).carry.outcomes = [] ∧
    (afterUnheard (.outcome 9 7 .returned) (outcomeFrame 5 9 7 .returned) owing).carry.outcomes = [] ∧
    (after .stateSent (sending .state status fresh)).ind.freshMark = false ∧
    (afterUnheard .state status fresh).ind.freshMark = false := by
  refine ⟨queueSound_sound (by decide), ?_⟩; decide +kernel

/-- `LineFramesSentComplete`, `CarryFramesSentComplete`: a frame of each of the eight types, acknowledged, and
unheard for the third time. -/
theorem test_meets_ends :
    let frames : List (Marker × Frame × Instr) := [(.claim .l0 2965 false, claimFrame 2965 .l0 false, .claimSent),
      (.object .l0, objectFrame 949 .l0 true, .objectSent), (.release .l0 .done, releaseFrame 5 .l0 .done, .releaseSent),
      (.offer 7 949, offerFrame 949 7, .offerSent), (.accept 3 7 5, acceptFrame 5 3 7, .acceptSent),
      (.carry 7 9, carryFrame 1000 5 9 0 7 (alarm 0 (.offered 990)), .carrySent),
      (.outcome 9 7 .returned, outcomeFrame 5 9 7 .returned, .outcomeSent),
      (.state, stateFrame 5 true State.reset.faults 0 0 (Four.const .usable), .stateSent)]
    frames.map (fun x => x.2.1.type) = [.claim, .object, .release, .offer, .accept, .carry, .outcome, .state] ∧
    ∀ x ∈ frames, (sending x.1 x.2.1 station).Ends ⟨x.1, x.2.1, 0, false, true⟩ x.2.1.type x.2.2 x.2.2
        (sending x.1 x.2.1 station).rbc.afterSent ∧
      (thirdTry x.1 x.2.1 station).Ends ⟨x.1, x.2.1, 2, false, true⟩ x.2.1.type x.2.2
        (.transmitError .ack (unheard 0 x.2.1)) ((thirdTry x.1 x.2.1 station).rbc.afterUnheard (unheard 0 x.2.1) 0) := by
  refine ⟨by decide, fun x hx => ⟨ends_acked .., ends_unheard x.1 x.2.1 station _ (by decide) ?_⟩⟩
  revert x; decide +kernel

/-- `SlotsLoadInOrder`: of three markers owed the OBJECT goes before the CLAIM, and of two CLAIMs the lower key (R92). -/
theorem test_slots_load :
    let s : State := { calling .claim none with
      rbc := { station.rbc with owed := [.claim .l1 3059 false, .claim .l0 2965 false, .object .l0] } }
    s.loadSlots.rbc.slots.map (fun x => (x.frame.type, x.frame.value.toNat))
      = [(.object, 2965), (.claim, 2965), (.claim, 3059)] ∧ s.loadSlots.rbc.owed = [] ∧ ¬ s.SlotsFilled ∧
    s.loadSlots.SlotsFilled := by
  refine ⟨by decide +kernel, by decide +kernel, fun h => ?_, .inl (by decide +kernel)⟩
  rcases h with h | h <;> exact absurd h (by decide +kernel)

/-- `Indications`: the STATE that start-up loads (address 5, fresh start, one record, L0 and L1 USABLE), and the flag that a
change of a reported item sets while it has not gone out (R172, R175, R176). -/
theorem test_indications :
    let s := after (.configReadDone workedImage) reading
    let t := after (.deadTimerExpiry .l0) (withLine .l0 (fun e => { e with deadTimer := true }) s)
    reading.ind.last = none ∧ s.rbc.slots.map (fun x => x.frame.payload) = [[0x80, 1, 0, 5]] ∧
    s.ind.stateOwed = false ∧ s.ind.last = some s.reported ∧ s.faultOutput = false ∧ State.reset.faultOutput = true ∧
    t.ind.stateOwed = true ∧ t.faultOutput = true ∧ t.rbc.slots.map Slot.frame = s.rbc.slots.map Slot.frame := by
  decide +kernel

/-- `UnitTimersComplete`: at a station that can dial, at one that cannot, and there at M (R36, R148). -/
theorem test_offer_window :
    let s := offering .window
    let mute : State := { s with clock := { s.clock with latch := true } }
    let last : State := { withRecords [{ alarm 3 (.offered 990) with attempts := 9 }] mute with
      carry := ⟨some ⟨7, 949, .window⟩, none, []⟩ }
    s.queue.Sound ∧ s.queue.findSeq 7 = some (alarm 0 (.offered 990)) ∧ s.cannotDial = false ∧
    (after .offerWindowExpiry s).queue.records.map (fun r => (r.waiting, r.attempts)) = [(true, 0)] ∧
    mute.cannotDial = true ∧ (after .offerWindowExpiry mute).queue.records.map Record.attempts = [1] ∧
    last.queue.Sound ∧ (after .offerWindowExpiry last).queue.commFail = true ∧
    (after .offerWindowExpiry last).queue.records.map Record.source = [96] := by
  refine ⟨queueSound_sound (by decide), by decide, by decide, by decide +kernel, by decide, by decide +kernel,
    queueSound_sound (by decide), by decide +kernel, by decide +kernel⟩

/-- `UnitTimersComplete`: at M, a record that is itself of source 96 leaves with no event; one of class 0 stays, with the
comm NEW event where the indicator was clear and none where it was set (R10, R36). -/
theorem test_offer_window_at_limit :
    let s := fun (r : Record) failed => ({ offering .window with
      clock := { (offering .window).clock with latch := true }
      queue := { AlertQueue.reset with
        records := [{ r with attempts := 9, state := .offered 990 }], admissions := 1, commFail := failed } } : State)
    let left := fun r failed => (after .offerWindowExpiry (s r failed)).queue.records.map fun x => (x.source, x.attempts)
    (s (alarm 0 .waiting) false).queue.Sound ∧ (s (alarm 0 .waiting) false).cannotDial = true ∧
    left { alarm 4 .waiting with kind := .own ⟨7, .comm, 953, 953⟩, source := 96 } false = [] ∧
    left (alarm 0 .waiting) false = [(1, 10), (96, 0)] ∧ left (alarm 0 .waiting) true = [(1, 10)] ∧
    left (alarm 3 .waiting) true = [(96, 0)] := by
  refine ⟨queueSound_sound (by decide), ?_⟩; decide +kernel

/-- `UnitTimersComplete` (R155, R175). -/
theorem test_unit_timers :
    let bidding : State := { station with carry := ⟨none, some ⟨3, 7, 5⟩, []⟩ }
    let spaced : State := { station with ind := { station.ind with spacing := true, stateOwed := true } }
    bidding.rbc.sendingSlot = none ∧ (after .acceptPendingTimeout bidding).carry.accept = none ∧ spaced.address ≠ 0 ∧
    (after .stateSpacingExpiry spaced).rbc.owes .state = true := by decide +kernel

/-- `FastClockCompletes`: the warm time reached at the nominal frequency and at its double; steady before the warm time and
after it; the clock's failure in CLAIM and in IDLE; its release (R115, R161 to R164). -/
theorem test_fast_clock :
    let s := claiming .passed
    let late : State := { s with clock := { s.clock with warmTimer := .passed } }
    let idle : State := { station with clock := { station.clock with state := .warming, warmTimer := .running } }
    let resting : State := { station with clock := { station.clock with state := .active, releaseTimer := true } }
    s.LineSound ∧ s.clock.state = .warming ∧ s.call.guardDone = true ∧
    (after (.warmTimeReached 3579545) s).call.state = .seize ∧
    (after (.warmTimeReached 7159090) s).clock.warmTimer = .passed ∧
    (after .oscillatorSteady s).clock.steady = true ∧ (after .oscillatorSteady late).clock.state = .active ∧
    (after .fastClockFail s).call = CallEngine.idle ∧
    (after .fastClockFail s).rbc.owes (.release .l0 .abandoned) = true ∧
    (after .fastClockFail (claiming .absent)).rbc.owes (.release .l0 .abandoned) = false ∧
    (after .fastClockFail idle).clock.latch = true ∧ (after (.warmTimeReached 3579545) idle).call = idle.call ∧
    (after .fastClockRelease resting).clock.state = .quiet ∧
    (after .fastClockRelease { resting with clock := { resting.clock with state := .quiet } }).clock.releaseTimer
      = false := by
  refine ⟨lineSound_sound (by decide), ?_⟩; decide +kernel

/-- `CallGoesForward`, from the barge clearing to the kiss-off wait (R127 to R136). -/
theorem test_call_forward :
    let heard := fun cls (s : State) => ({ s with tone := { s.tone with cls := cls } } : State)
    let judged := heard .dial (calling .seize (some .dialToneWait))
    (after .bargeClearingEnd (calling .seize (some .bargeClearing))).call.timer = some .dialToneWait ∧
    judged.callLead = some (alarm 2 .inCall) ∧ (after .dialToneJudged judged).call.digits = [.digit 9, .digit 4] ∧
    (after .dialToneJudged judged).atx = [(852, 1477)] ∧
    (after .digitEnd (after .dialToneJudged judged)).atx = [(770, 1209)] ∧
    (after .digitEnd (after .digitEnd (after .dialToneJudged judged))).call.state = .handshake ∧
    (after .handshakeJudged (heard .handshake (calling .handshake (some .handshakeWait)))).call.timer = some .settle ∧
    (after .settleEnd (calling .handshake (some .settle))).call.block.length = 15 ∧
    (after .sendEnd (calling .send (some .symbols))).call.timer = some .kissoffWait ∧
    (after .kissoffWaitExpiry (calling .kissoff (some .kissoffWait))).call.sends = 1 ∧
    (after .betweenMessagesEnd (calling .kissoff (some .betweenMessages))).call.state = .send := by decide +kernel

/-- `CallGoesForward`: a line in trouble that gives a dial tone: F is 0, the flag clears, and 90 CLEARED follows (R9, R69,
R70); with nothing changed no event does. -/
theorem test_line_proved :
    let judged : State := { calling .seize (some .dialToneWait) with tone := ⟨.dial, 0, false⟩ }
    let troubled := withLine .l0 (fun e => { e with failures := 3, trouble := true }) judged
    ((after .dialToneJudged troubled).entry .l0).failures = 0 ∧ ((after .dialToneJudged troubled).entry .l0).trouble = false ∧
    (after .dialToneJudged troubled).queue.records.map (fun r => (r.source, r.cls)) = [(1, 2), (90, 5)] ∧
    (after .dialToneJudged judged).queue.records.map (fun r => (r.source, r.cls)) = [(1, 2)] := by decide +kernel

/-- A pause is dialled in silence (R131). -/
theorem test_pause :
    let s : State := { calling .dial (some .digit) with
      call := { (calling .dial (some .digit)).call with digits := [.digit 9, .pause, .digit 4] } }
    (after .digitEnd s).atx = [] ∧ (after .digitEnd (after .digitEnd s)).atx = [(770, 1209)] := by decide +kernel

/-- `TonesAreHeard`: half a busy cycle and its other half, a gap, a period too long, and the third cycle in the settle
(R122). -/
theorem test_tones :
    let s := fun (t : Tone) => ({ calling .handshake (some .handshakeWait) with tone := t } : State)
    (s ⟨.dial, 1, false⟩).hearing = true ∧ (after (.toneClassChange [] 500) (s ⟨.dial, 1, false⟩)).tone = ⟨.none, 1, true⟩ ∧
    (after (.toneClassChange [425] 500) (s ⟨.none, 1, true⟩)).tone = ⟨.dial, 2, false⟩ ∧
    (after (.toneGapLimit 700) (s ⟨.dial, 2, false⟩)).tone = ⟨.none, 0, false⟩ ∧
    (after .busyPeriodLimit (s ⟨.dial, 2, false⟩)).tone = ⟨.dial, 0, false⟩ ∧
    (after .busyCadence { calling .handshake (some .settle) with tone := ⟨.dial, 3, false⟩ }).tone
      = ⟨.dial, 0, false⟩ := by decide +kernel

/-- `TonesAreHeard`: while the generator sends a digit, or the report block, no tone changes the class; in a pause one does,
and in a silence too: a kiss-off begun in the last silence stands into KISSOFF (R121, R123, R131). -/
theorem test_deaf_while_sending :
    let dialling := fun d => ({ calling .dial (some .digit) with
      call := { (calling .dial (some .digit)).call with digits := d } } : State)
    let sent := after .settleEnd (calling .handshake (some .settle))
    (dialling [.digit 9]).atx ≠ [] ∧ after (.toneClassChange [425] 50) (dialling [.digit 9]) = dialling [.digit 9] ∧
    (after (.toneClassChange [425] 50) (dialling [.pause])).tone.cls = .dial ∧
    sent.atx.length = 15 ∧ after (.toneClassChange [2030] 50) sent = sent ∧ after (.toneGapLimit 40) sent = sent ∧
    sent.hearing = true ∧ (after .sendEnd (after (.toneClassChange [2030] 50 true) sent)).tone.cls = .kissoff := by
  decide +kernel

/-- A kiss-off heard by a call with a second record behind. -/
def kissed (yieldPending : Bool) (l : List Record) : State :=
  { withRecords (alarm 2 .inCall :: l) (calling .kissoff (some .kissoffWait)) with
    tone := ⟨.kissoff, 0, false⟩
    call := { (calling .kissoff (some .kissoffWait)).call with yieldPending := yieldPending, sends := 1 } }

/-- `KissoffDelivers`: the next of the batch, a yield, and the end (R134, R135). -/
theorem test_kissoff :
    let next : Record := { alarm 4 .waiting with kind := .own ⟨8, .trouble, 960, 960⟩, order := 1, source := 4 }
    (kissed false [next]).queue.Sound ∧ (kissed false [next]).callInHand = some (alarm 2 .inCall) ∧
    (kissed false [next]).FlagsRight ∧ (∀ x ∈ (kissed false [next]).queue.records, x.state = .inCall → x = alarm 2 .inCall) ∧
    firstOf 1000 (((kissed false [next]).queue.deliver 1000 (alarm 2 .inCall)).records.filter Record.waiting) = some next ∧
    (after .kissoffJudged (kissed false [next])).call.inHand = some 1 ∧
    (after .kissoffJudged (kissed true [next])).call.outcome = some .preempted ∧
    (kissed false []).queue.Sound ∧ (after .kissoffJudged (kissed false [])).call.outcome = some .done := by
  refine ⟨queueSound_sound (by decide), by decide, flagsRight_of (by decide), by decide, by decide, by decide +kernel,
    by decide +kernel, queueSound_sound (by decide), by decide +kernel⟩

/-- `KissoffDelivers`: a delivery that ends comm fail raises 96 CLEARED; a RELEASE is owed for PREEMPTED and DONE, and in
solo mode for neither (R10, R113, R143). -/
theorem test_kissoff_release :
    let failing := fun y => { kissed y [] with queue := { (kissed y []).queue with commFail := true } }
    let solo := fun y => { kissed y [] with rbc := { station.rbc with stuck := true } }
    (after .kissoffJudged (failing true)).queue.records.map (fun r => (r.source, r.cls)) = [(96, 5)] ∧
    (after .kissoffJudged (kissed true [])).rbc.owes (.release .l0 .preempted) = true ∧
    (after .kissoffJudged (kissed false [])).rbc.owes (.release .l0 .done) = true ∧ (solo true).solo = true ∧
    (after .kissoffJudged (solo true)).rbc.owes (.release .l0 .preempted) = false ∧
    (after .kissoffJudged (solo false)).rbc.owes (.release .l0 .done) = false := by
  decide +kernel

/-- `CallsHangUp` (R122, R128, R129, R132, R136). -/
theorem test_hang_ups :
    let unkissed : State := { kissed false [] with call := { (kissed false []).call with sends := 4 } }
    (calling .seize (some .dialToneWait)).call.line = some .l0 ∧
    (after .dialToneWaitExpiry (calling .seize (some .dialToneWait))).call.outcome = some .noDialTone ∧
    (after .lineLostTimerExpiry { calling .send (some .symbols) with
      call := { (calling .send (some .symbols)).call with lineLost := true } }).call.outcome = some .lineLost ∧
    (after .busyCadence { calling .handshake (some .handshakeWait) with tone := ⟨.dial, 3, false⟩ }).call.outcome
      = some .centreBusy ∧
    (after .handshakeWaitExpiry (calling .handshake (some .handshakeWait))).call.outcome = some .noHandshake ∧
    unkissed.callInHand = some (alarm 2 .inCall) ∧ (after .kissoffWaitExpiry unkissed).call.outcome = some .noKissoff := by
  decide +kernel

/-- `CallsHangUp`: F rises to T_line, the flag is set and 90 NEW of class 4 admitted; below it nothing is; a lead of class 3
with no join due is held back; in solo mode no RELEASE is owed (R9, R25, R51, R68, R70, R143). -/
theorem test_hang_up_trouble :
    let s := fun n => withLine .l0 (fun e => { e with failures := n })
      (withRecords [alarm 3 .inCall] (calling .seize (some .dialToneWait)))
    let t := fun n => after .dialToneWaitExpiry (s n)
    (s 2).queue.Sound ∧ (s 2).queue.NoJoinDue ∧ (s 2).FlagsRight ∧ ((t 2).entry .l0).trouble = true ∧
    ((t 2).entry .l0).failures = 3 ∧ ((t 1).entry .l0).trouble = false ∧
    (t 2).queue.records.map (fun r => (r.source, r.cls, r.notBefore)) = [(1, 3, 1005), (90, 4, 1000)] ∧
    (t 1).queue.records.map (fun r => (r.source, r.cls, r.notBefore)) = [(1, 3, 1005)] ∧
    (t 2).rbc.owes (.release .l0 .failed) = true ∧
    (after .dialToneWaitExpiry { s 2 with rbc := { station.rbc with stuck := true } }).rbc.owes (.release .l0 .failed)
      = false := by
  refine ⟨queueSound_sound (by decide), by unfold AlertQueue.NoJoinDue; decide, flagsRight_of (by decide), ?_⟩
  decide +kernel

/-- `FailuresAreCounted`: at M, the comm NEW event of an own record that leaves, and none of one that is itself of source 96
(R10, R36). -/
theorem test_failed_at_limit :
    let s := fun (r : Record) => withRecords [{ r with attempts := 9 }] (calling .handshake (some .handshakeWait))
    let left := fun r => (after .handshakeWaitExpiry (s r)).queue.records.map fun x => (x.source, x.cls)
    (s (alarm 3 .inCall)).queue.Sound ∧ (s (alarm 3 .inCall)).FlagsRight ∧
    (s (alarm 3 .inCall)).callInHand = some { alarm 3 .inCall with attempts := 9 } ∧
    left (alarm 3 .inCall) = [(96, 4)] ∧ left (alarm 2 .inCall) = [(1, 2), (96, 4)] ∧
    left { alarm 4 .inCall with kind := .own ⟨7, .comm, 953, 953⟩, source := 96 } = [] := by
  refine ⟨queueSound_sound (by decide), flagsRight_of (by decide), ?_⟩; decide +kernel

/-- `FailuresAreCounted`: line-caused, centre-caused, of class 3 below M and at M, and a carried one at M (R36, R37, R141,
R142). -/
theorem test_failures :
    let s := calling .seize (some .dialToneWait)
    let busy := calling .handshake (some .handshakeWait)
    let third := fun n => withRecords [{ alarm 3 .inCall with attempts := n }] busy
    let carried := fun orphaned => withRecords [{ alarm 3 .inCall with
      kind := .carried ⟨9, 7, 0x118306, 4, 990, orphaned⟩, attempts := 9 }] busy
    s.queue.Sound ∧ (third 9).queue.Sound ∧ (carried false).queue.Sound ∧
    (∀ x ∈ s.queue.records, x.state = .inCall → x = alarm 2 .inCall) ∧
    s.callLead = some (alarm 2 .inCall) ∧ busy.callInHand = some (alarm 2 .inCall) ∧
    (after .dialToneWaitExpiry s).queue.records.map (fun r => (r.notBefore, r.attempts)) = [(1005, 0)] ∧
    (after .handshakeWaitExpiry busy).queue.records.map (fun r => (r.notBefore, r.attempts, r.second))
      = [(1015, 1, true)] ∧
    (after .handshakeWaitExpiry (third 4)).queue.records.map (fun r => (r.notBefore, r.attempts, r.second))
      = [(1090, 5, true)] ∧
    (after .handshakeWaitExpiry (third 9)).queue.commFail = true ∧
    (after .handshakeWaitExpiry (carried false)).queue.records = [] ∧
    (after .handshakeWaitExpiry (carried false)).queue.commFail = false ∧
    (after .handshakeWaitExpiry (carried false)).carry.outcomes.map (fun e => (e.origin, e.seq, e.result))
      = [(9, 7, .returned)] ∧
    (after .handshakeWaitExpiry (carried true)).carry.outcomes = [] := by
  refine ⟨queueSound_sound (by decide), queueSound_sound (by decide), queueSound_sound (by decide), ?_⟩; decide +kernel

/-- `FailuresAreCounted`: the line lost, with the lead and with the lead delivered; the centre busy; no kiss-off for a record
that is not the lead; an own record of class 2 at M (R36, R141, R142). -/
theorem test_other_failures :
    let lost := fun lead => ({ calling .send (some .symbols) with
      call := { (calling .send (some .symbols)).call with lineLost := true, lead := some lead } } : State)
    let busy : State := { withRecords [{ alarm 2 .inCall with attempts := 9 }] (calling .handshake (some .handshakeWait)) with
      tone := ⟨.dial, 3, false⟩ }
    let unkissed : State := { kissed false [] with call := { (kissed false []).call with sends := 4, lead := some 5 } }
    let outcome := fun (s : State) => s.queue.records.map fun r => (r.source, r.notBefore, r.attempts)
    (lost 0).callLead = some (alarm 2 .inCall) ∧ outcome (after .lineLostTimerExpiry (lost 0)) = [(1, 1005, 0)] ∧
    (lost 5).callLead = none ∧ outcome (after .lineLostTimerExpiry (lost 5)) = [(1, 1000, 0)] ∧
    busy.queue.Sound ∧ outcome (after .busyCadence busy) = [(1, 1090, 10), (96, 1000, 0)] ∧
    (after .busyCadence busy).queue.commFail = true ∧ unkissed.callLead = none ∧
    unkissed.callInHand = some (alarm 2 .inCall) ∧ outcome (after .kissoffWaitExpiry unkissed) = [(1, 1015, 1)] ∧
    (after .kissoffWaitExpiry unkissed).queue.commFail = false := by
  refine ⟨by decide, by decide +kernel, by decide, by decide +kernel, queueSound_sound (by decide), ?_⟩; decide +kernel

/-- `HangUpHoldEndCompletes`: an OBJECT on the line goes, a RELEASE that waits stays (R108, R113). -/
theorem test_hold_end_frames :
    let s : State := { withRecords [] (calling .hangup (some .hold)) with
      rbc := { station.rbc with owed := [.object .l0, .release .l0 .done] } }
    (after .hangUpHoldEnd s).rbc.owes (.object .l0) = false ∧ (after .hangUpHoldEnd s).rbc.owes (.release .l0 .done) = true := by
  decide +kernel

/-- `HangUpHoldEndCompletes`: with no lead, and with one that a line is free for (R140). -/
theorem test_hold_end :
    let s := withRecords [] (calling .hangup (some .hold))
    let more := withRecords [alarm 2 .waiting] (calling .hangup (some .hold))
    s.call.line = some .l0 ∧ s.lead = none ∧ s.rbc.sendingSlot = none ∧ (after .hangUpHoldEnd s).call = CallEngine.idle ∧
    more.queue.Sound ∧ more.offerable = none ∧ more.lead = some (alarm 2 .waiting) ∧
    candidate (more.clearOwnFields .l0).view.entries more.solo 2 = some (.l0, .free) ∧
    (after .hangUpHoldEnd more).call.state = .claim := by
  refine ⟨by decide, by decide, by decide, by decide +kernel, queueSound_sound (by decide), by decide, by decide +kernel,
    by decide +kernel, by decide +kernel⟩

/-- Figure 7-1's claim: a line in office use is barged by a class 0 record, from tier 2 (R99). -/
theorem test_barge :
    let v : Four Entry := (Four.const Entry.reset).set .l2 { restLine with sense := some .offHook, band := some .offHook }
    candidate v false 0 = some (.l2, .office) ∧ candidate v false 4 = none := by decide +kernel

/-- `HangUpHoldEndCompletes`: the tiers of Table 6-1 in turn: FREE by score, OFFICE, FREE in trouble, PEER by the highest
key to displace, and that one not in solo mode (R99). -/
theorem test_candidate_tiers :
    let free := fun f u => { restLine with failures := f, occupancy := u }
    let office := { restLine with sense := some .offHook }
    let troubled := { restLine with failures := 3, trouble := true }
    let peer := fun key => { restLine with holder := some ⟨9, key⟩ }
    let claimed := { peer 7000 with pending := some ⟨3, 5000, false, false⟩ }
    candidate ⟨free 1 0, free 0 24, free 0 27, office⟩ false 0 = some (.l1, .free) ∧
    candidate ⟨troubled, office, office, Entry.reset⟩ false 3 = some (.l1, .office) ∧
    candidate ⟨troubled, office, peer 6000, Entry.reset⟩ false 4 = some (.l0, .troubled) ∧
    candidate ⟨peer 4000, claimed, peer 6000, Entry.reset⟩ false 1 = some (.l2, .overHolder) ∧
    candidate ⟨peer 4000, claimed, peer 4500, Entry.reset⟩ false 1 = some (.l1, .overPending) ∧
    candidate ⟨peer 4000, claimed, peer 6000, Entry.reset⟩ false 4 = none ∧
    candidate ⟨peer 4000, claimed, peer 6000, Entry.reset⟩ true 1 = none := by decide +kernel

end Sys2Proof.Tests
end

/-! Zone supervision (Chapter 1): what one sample and one pass do to a zone, and the statements about them. -/

namespace Sys2Proof.Machine

open Host

@[simp] theorem Eight.get_ofZone {α : Type} (g : ZoneId → α) (n : ZoneId) : (Eight.ofZone g).get n = g n := by
  cases n <;> rfl

/-! ### The conditions of one zone -/

/-- Setting the debounced state recomputes both conditions from it (R4). -/
theorem Zone.setDebounced_consistent (b : Band) (z : Zone) : (z.setDebounced b).Consistent := by
  simp [Zone.Consistent, Zone.setDebounced]

/-- The two conditions are never true together (R4). -/
theorem Zone.Consistent.not_both {z : Zone} (h : z.Consistent) : ¬ (z.alarm = true ∧ z.trouble = true) := by
  obtain ⟨halarm, htrouble⟩ := h
  rintro ⟨ha, ht⟩
  have hactive := halarm.mp ha
  rcases htrouble.mp ht with hopened | hshort
  · exact absurd (hactive.symm.trans hopened) (by decide)
  · exact absurd (hactive.symm.trans hshort) (by decide)

/-- A NORMAL zone has neither condition (R4). -/
theorem Zone.Consistent.quiet {z : Zone} (h : z.Consistent) (hn : z.debounced = .normal) :
    z.alarm = false ∧ z.trouble = false := by
  obtain ⟨halarm, htrouble⟩ := h
  exact ⟨by simpa [hn] using halarm, by simpa [hn] using htrouble⟩

/-- An OPEN or SHORT zone has a trouble and no alarm (R4). -/
theorem Zone.Consistent.troubled {z : Zone} (h : z.Consistent) (hb : z.debounced = .opened ∨ z.debounced = .short) :
    z.alarm = false ∧ z.trouble = true := by
  have ht : z.trouble = true := h.2.mpr hb
  exact ⟨Bool.eq_false_iff.mpr fun ha => h.not_both ⟨ha, ht⟩, ht⟩

/-- From `old` to `new` the debounced state stays and the conditions with it, or it changes and they are recomputed
(R4). -/
def Zone.Follows (old new : Zone) : Prop :=
  (new.debounced = old.debounced ∧ new.alarm = old.alarm ∧ new.trouble = old.trouble) ∨
    (new.debounced ≠ old.debounced ∧ new.Consistent)

theorem Zone.Follows.refl (z : Zone) : Zone.Follows z z := .inl ⟨rfl, rfl, rfl⟩

/-- Conditions that agreed with the debounced state agree with it afterwards (R4). -/
theorem Zone.Follows.consistent {old new : Zone} (h : Zone.Follows old new) (ho : old.Consistent) : new.Consistent := by
  rcases h with ⟨hd, ha, ht⟩ | ⟨-, hnew⟩
  · simpa only [Zone.Consistent, hd, ha, ht] using ho
  · exact hnew

/-! ### One sample, one pass -/

/-- A sample sets the debounced state only to a band other than it (R3, R4). -/
theorem Zone.sample_follows (debounce : Nat) (b : Band) (z : Zone) : Zone.Follows z (z.sample debounce b) := by
  unfold Zone.sample
  dsimp only
  split
  next hset => exact .inr ⟨hset.2, Zone.setDebounced_consistent b _⟩
  next => exact .inl ⟨rfl, rfl, rfl⟩

theorem zoneAfter_follows (loops : Eight LoopMeasure) (s : State) (n : ZoneId) :
    Zone.Follows (s.zone.zones.get n) (zoneAfter loops s n) := by
  unfold zoneAfter
  split
  next => exact Zone.sample_follows _ _ _
  next => exact Zone.Follows.refl _

/-- The zone unit after a pass: every zone as the pass leaves it, once sampling has begun, and nothing else changed; the
events raised and the end of the step leave it (R2, R8). -/
theorem zone_of_zoneSamplePass {loops : Eight LoopMeasure} {s t : State} (h : exec (.zoneSamplePass loops) s = .next t) :
    t.zone = if s.zone.sampling then { s.zone with zones := Eight.ofZone (zoneAfter loops s) } else s.zone := by
  change execZoneSamplePass loops s = .next t at h
  unfold execZoneSamplePass at h
  split at h
  next hsampling =>
    rw [if_pos hsampling]
    dsimp only at h
    split at h
    next => rw [← Outcome.next.inj h]
    next =>
      rw [← Outcome.next.inj h]
      exact (State.settle_settled _ _).zone.trans (State.raiseAll_zone _ _)
  next hidle =>
    rw [if_neg hidle, ← Outcome.next.inj h]

/-- Every zone's conditions follow its debounced state through a pass (R4). -/
theorem zoneSamplePass_follows {loops : Eight LoopMeasure} {s t : State} (n : ZoneId)
    (h : exec (.zoneSamplePass loops) s = .next t) : Zone.Follows (s.zone.zones.get n) (t.zone.zones.get n) := by
  rw [zone_of_zoneSamplePass h]
  split
  next => simpa using zoneAfter_follows loops s n
  next => exact Zone.Follows.refl _

/-- Settles O20: a pass keeps a zone's debounced state with its conditions, or recomputes them from the new one. -/
theorem zoneConditionsFollowTheDebouncedState : Obligations.ZoneConditionsFollowTheDebouncedState := by
  unfold Obligations.ZoneConditionsFollowTheDebouncedState
  intro loops s t n h old new
  have hf : Zone.Follows old new := zoneSamplePass_follows n h
  refine ⟨fun hne => ?_, fun heq => ?_, fun ho => ?_, fun ho hopened hshort => ?_⟩
  · rcases hf with ⟨heq, -⟩ | ⟨-, hnew⟩
    · exact absurd heq hne
    · exact hnew
  · rcases hf with ⟨-, hsame⟩ | ⟨hne, -⟩
    · exact hsame
    · exact absurd heq hne
  · have hnew := hf.consistent ho
    exact ⟨hnew, hnew.not_both, hnew.quiet⟩
  · obtain ⟨hoa, hot⟩ := ho.troubled (.inl hopened)
    obtain ⟨hna, hnt⟩ := (hf.consistent ho).troubled (.inr hshort)
    exact ⟨hna.trans hoa.symm, hnt.trans hot.symm⟩

end Sys2Proof.Machine

/-! ### Pre-emption by class (R43, R46)

Each class has a block of 1024 keys of its own, so the class part of a composed key is the class it was composed from,
and the test of R46, which reads the class parts only, compares the two classes. -/

namespace Sys2Proof.Machine

/-- The parts below the class stay inside the class's block of 1024 keys (R43). -/
theorem keyClass_composeKey {w o a : Nat} (c : Nat) (hw : w ≤ 31) (ho : o ≤ 1) (ha : a ≤ 15) :
    keyClass (composeKey c w o a) = c := by
  have hblock : 32 * w + 16 * o + a < 1024 := by omega
  calc keyClass (composeKey c w o a)
      = (1024 * c + (32 * w + 16 * o + a)) / 1024 := by simp only [keyClass, composeKey, Nat.add_assoc]
    _ = c + (32 * w + 16 * o + a) / 1024 := Nat.mul_add_div (by decide) c _
    _ = c := by rw [Nat.div_eq_of_lt hblock, Nat.add_zero]

theorem qualifies_iff {claimant displaced : Nat} :
    qualifies claimant displaced = true ↔ keyClass claimant + 2 ≤ keyClass displaced :=
  decide_eq_true_iff

/-- Settles O11: the class parts of the two keys are their classes, so that classes 5 and 6 and equal classes fail and
class 0 passes from class 2 on is arithmetic on classes of at most 6. -/
theorem qualifyingIsByClassAlone : Obligations.QualifyingIsByClassAlone := by
  unfold Obligations.QualifyingIsByClassAlone
  intro c w o a c' w' o' a' _ hw ho ha hc' hw' ho' ha'
  have hiff : qualifies (composeKey c w o a) (composeKey c' w' o' a') = true ↔ c + 2 ≤ c' := by
    rw [qualifies_iff, keyClass_composeKey c hw ho ha, keyClass_composeKey c' hw' ho' ha']
  refine ⟨hiff, fun hsame => ?_, fun hlow => ?_, fun hzero hfrom => ?_⟩
  · exact Bool.eq_false_iff.mpr fun hq => absurd (hiff.mp hq) (by omega)
  · exact Bool.eq_false_iff.mpr fun hq => absurd (hiff.mp hq) (by omega)
  · exact hiff.mpr (by omega)

end Sys2Proof.Machine

/-! ### Peers' claims on a line (R61 to R65, R109)

An entry carries the peers' claims on its line beside the station's own claim. An OBJECT writes the peers' part at once;
what follows in the step, the call's abandonment or HANGUP and the settlement, writes only own fields and trouble flags. -/

namespace Sys2Proof.Machine

open Host

/-- What an entry holds of the peers' claims: the pending claim with its timers, the holder, and the on-hook timer that
runs against the holder (R61, R62, R64). -/
def Entry.peerPart (e : Entry) : Option Pending × Option Holder × Bool := (e.pending, e.holder, e.onHookTimer)

@[simp] theorem Entry.clearOwn_peerPart (e : Entry) : e.clearOwn.peerPart = e.peerPart := rfl

@[simp] theorem Entry.others_peerPart (e : Entry) : e.others.peerPart = e.peerPart := rfl

@[simp] theorem Entry.placeOwn_peerPart (key : Nat) (tier : Tier) (solo : Bool) (e : Entry) :
    (e.placeOwn key tier solo).peerPart = e.peerPart := rfl

theorem Entry.observeObject_peerPart (addr key : Nat) (e : Entry) :
    (e.observeObject addr key).peerPart = (none, some ⟨addr, key⟩, decide (e.sense = some .onHook)) := rfl

/-! ### What keeps them -/

/-- A change of one entry that keeps its peers' part keeps that of every line. -/
theorem LineView.update_peerPart {f : Entry → Entry} (hf : ∀ e, (f e).peerPart = e.peerPart) (v : LineView)
    (j k : LineId) : ((v.update k f).get j).peerPart = (v.get j).peerPart := by
  rw [LineView.get_update]
  split
  next hjk => rw [hjk, hf]
  next => rfl

theorem State.placeOn_peerPart (k : LineId) (tier : Tier) (r : Record) (s : State) (j : LineId) :
    ((s.placeOn k tier r).entry j).peerPart = (s.entry j).peerPart :=
  LineView.update_peerPart (Entry.placeOwn_peerPart _ tier s.solo) s.view j k

theorem State.dropClaim_peerPart (k : LineId) (s : State) (j : LineId) :
    ((s.dropClaim k).entry j).peerPart = (s.entry j).peerPart := by
  simp only [State.dropClaim, State.clearOwnFields, State.entry, State.cancel_view]
  exact LineView.update_peerPart Entry.clearOwn_peerPart s.view j k

theorem State.rechoose_peerPart (s : State) (j : LineId) : (s.rechoose.entry j).peerPart = (s.entry j).peerPart := by
  have hgiven : (s.giveUpCall.entry j).peerPart = (s.entry j).peerPart := by
    simp only [State.entry, State.giveUpCall_view]
  unfold State.rechoose
  split
  next => exact hgiven
  next r _ =>
    split
    next =>
      split
      next k tier _ =>
        simp only [State.entry, State.trySeize_view]
        exact s.placeOn_peerPart k tier r j
      next => exact hgiven
    next => exact hgiven

theorem State.abandonInClaim_peerPart (k : LineId) (s : State) (j : LineId) :
    ((s.abandonInClaim k).entry j).peerPart = (s.entry j).peerPart :=
  ((s.dropClaim k).rechoose_peerPart j).trans (s.dropClaim_peerPart k j)

/-- HANGUP entry writes the failures of the call's line and the trouble flags only (R139). -/
theorem State.hangUp_peerPart (o : CallOutcome) (s : State) (j : LineId) :
    ((s.hangUp o).entry j).peerPart = (s.entry j).peerPart := by
  cases hline : s.call.line with
  | none => simp only [State.hangUp, hline]
  | some k =>
    have hentry := congrArg Entry.peerPart ((State.hangUp_hungUp k o s hline).entries j)
    exact hentry

theorem State.takeObjection_peerPart (k : LineId) (s : State) (j : LineId) :
    ((s.takeObjection k).entry j).peerPart = (s.entry j).peerPart := by
  unfold State.takeObjection
  cases s.call.state with
  | claim => exact s.abandonInClaim_peerPart k j
  | seize => exact s.hangUp_peerPart .abandoned j
  | dial => exact s.hangUp_peerPart .abandoned j
  | handshake => exact s.hangUp_peerPart .abandoned j
  | send => rfl
  | kissoff => rfl
  | idle => rfl
  | hangup => rfl

theorem State.Settled.peerPart {made left : State} (h : State.Settled made left) (j : LineId) :
    (left.entry j).peerPart = (made.entry j).peerPart :=
  calc (left.entry j).peerPart
      = (left.entry j).others.peerPart := (Entry.others_peerPart _).symm
    _ = (made.entry j).others.peerPart := by rw [h.entries j]
    _ = (made.entry j).peerPart := Entry.others_peerPart _

/-! ### An OBJECT received -/

/-- A frame whose fields are looked at and in range is delivered to its block once the controller has ended it (R87, R96,
R97). -/
theorem State.receiveFrame_of_hears {α : Type} {w : Nat} {value : BitVec 13} {s : State} (h : s.Hears value)
    (type : FrameType) (payload : BitVec w) (acked : Bool) (x : α) (take : α → State → State) :
    s.receiveFrame (receivedFrame type value payload) acked (some x) take =
      take x (s.heard (receivedFrame type value payload) acked) := by
  obtain ⟨hreceiving, hstuck, hclash⟩ := h
  have hnoClash : ¬ (s.address ≠ 0 ∧ senderOf (receivedFrame type value payload).value = s.address) := by
    rintro ⟨haddress, hsender⟩
    exact hclash.elim haddress fun hother => hother hsender
  unfold State.receiveFrame
  rw [if_pos (by simp [hreceiving, hstuck])]
  exact if_neg hnoClash

/-- The key of an OBJECT in range is its value (R107). -/
theorem readObject_key {value : BitVec 13} {payload : BitVec 16} {f : ClaimFields}
    (h : readObject value payload = some f) : f.key = value.toNat := by
  unfold readObject at h
  split at h
  next =>
    split at h
    next => rw [← Option.some.inj h]
    next => cases h
  next => cases h

/-- An OBJECT for a wired line leaves the objector as the holder there, whatever it does to the call (R109, R110). -/
theorem State.takeObject_peerPart {f : ClaimFields} {s : State} (hwired : (s.entry f.line).wired = true) :
    ((s.takeObject f).entry f.line).peerPart =
      (none, some ⟨f.addr, f.key⟩, decide ((s.entry f.line).sense = some .onHook)) := by
  have hobserved : ((s.view.update f.line (Entry.observeObject f.addr f.key)).get f.line).peerPart =
      (none, some ⟨f.addr, f.key⟩, decide ((s.entry f.line).sense = some .onHook)) := by
    rw [LineView.get_update_same, Entry.observeObject_peerPart]
    rfl
  unfold State.takeObject
  rw [if_neg (by simp [hwired])]
  dsimp only
  split
  next =>
    rw [State.takeObjection_peerPart]
    exact hobserved
  next => exact hobserved

/-- An OBJECT in range is taken by its line's block, and the step then settles (R96, R109). -/
theorem exec_objectReceived {value : BitVec 13} {payload : BitVec 16} {acked : Bool} {f : ClaimFields} {s : State}
    (hhears : s.Hears value) (hread : readObject value payload = some f) :
    exec (.objectReceived value payload acked) s =
      .next (State.settle (s.heard (receivedFrame .object value payload) acked)
        ((s.heard (receivedFrame .object value payload) acked).takeObject f)) := by
  change execObjectReceived value payload s acked = _
  unfold execObjectReceived
  rw [hread, State.receiveFrame_of_hears hhears]

/-- Settles O42: the OBJECT writes the peers' part of the entry, and neither the call's answer to it nor the settlement
writes that part again. -/
theorem objectSetsTheHolder : Obligations.ObjectSetsTheHolder := by
  unfold Obligations.ObjectSetsTheHolder
  intro value payload acked f s hhears hread hwired
  refine ⟨_, exec_objectReceived hhears hread, ?_⟩
  have htaken := State.takeObject_peerPart (s := s.heard (receivedFrame .object value payload) acked) hwired
  have hleft := ((State.settle_settled (s.heard (receivedFrame .object value payload) acked) _).peerPart f.line).trans
    htaken
  rw [readObject_key hread] at hleft
  obtain ⟨hpending, hholderTimer⟩ := Prod.mk.inj hleft
  obtain ⟨hholder, htimer⟩ := Prod.mk.inj hholderTimer
  exact ⟨hpending, hholder, htimer⟩

end Sys2Proof.Machine

/-! ### What a command can do (the command table)

One inversion for all commands: `exec_does` says of every command in every state which effect it has and how its step is
closed, so that a claim about every step is one case analysis over `State.Effect`. -/

namespace Sys2Proof.Machine

open Host

/-- How a step is closed after the command's own effect (log entry 20). -/
inductive Ending where
  | none | frames | choice | full

/-- The state as the end of the step leaves it. -/
def Ending.close : Ending → State → State → State
  | .none, _, made => made
  | .frames, before, made => State.settleFrames before made
  | .choice, before, made => State.settleChoice before made
  | .full, before, made => State.settle before made

/-- The station after a line-sample pass, before the all-dead timer and the watch (R56). -/
def State.linesSampled (volts : Four Int) (s : State) : State :=
  { s with view := { s.view with entries := sampledEntries volts s } }

/-- The same with the all-dead timer (R58). -/
def State.linesTimed (volts : Four Int) (s : State) : State :=
  { s.linesSampled volts with view := (s.linesSampled volts).view.timeAllDead }

/-- The type of the own frame whose end a command brings (R82). -/
def sentType : Instr → Option FrameType
  | .claimSent => some .claim
  | .objectSent => some .object
  | .releaseSent => some .release
  | .offerSent => some .offer
  | .acceptSent => some .accept
  | .carrySent => some .carry
  | .outcomeSent => some .outcome
  | .stateSent => some .state
  | _ => none

/-- The commands that bring a frame of another station (R87). -/
def isReceipt : Instr → Bool
  | .claimReceived _ _ _ => true
  | .objectReceived _ _ _ => true
  | .releaseReceived _ _ _ => true
  | .offerReceived _ _ _ => true
  | .acceptReceived _ _ _ => true
  | .carryReceived _ _ _ => true
  | .outcomeReceived _ _ _ => true
  | .stateReceived _ _ _ => true
  | _ => false

/-- `s.Effect c e b u`: command c, run in s, has the effect that leaves u, and its step is closed as e from b to u. The
hypotheses are the guards of c's own condition; where it does not hold nothing changes (log entry 1). -/
inductive State.Effect (s : State) : Instr → Ending → State → State → Prop
  | idle {c} : s.Effect c .none s s
  | reset : s.Effect .reset .none s { State.reset with free := s.free, pending := s.pending }
  | releaseOfReset {straps} (h : s.loader.inReset = true) : s.Effect (.releaseOfReset straps) .frames s { s with
      time := 0
      loader := { s.loader with
        inReset := false, reading := true, strap := straps, configFault := decide (straps = 0) } }
  | configReadDone {image} (h : s.loader.reading = true) :
      s.Effect (.configReadDone image) .full s (beginSampling (joinBus (loadImage image s)))
  | zonesQuiet {loops} (h : s.zone.sampling = true) (hn : (passEvents loops s).isEmpty = true) :
      s.Effect (.zoneSamplePass loops) .none s { s with zone := { s.zone with zones := Eight.ofZone (zoneAfter loops s) } }
  | zonesChanged {loops} (h : s.zone.sampling = true) (hn : ¬ (passEvents loops s).isEmpty = true) :
      s.Effect (.zoneSamplePass loops) .full s (State.raiseAll (passEvents loops s)
        { s with zone := { s.zone with zones := Eight.ofZone (zoneAfter loops s) } })
  | testTimerExpiry (h : s.zone.testTimer = some 0) : s.Effect .testTimerExpiry .full s (State.raise periodicTest
      { s with zone := { s.zone with testTimer := testInterval s.loader.settings.testHours } })
  | linesQuiet {volts} (h : s.loader.verified = true)
      (hn : ¬ senseChanged s.view.entries (sampledEntries volts s) = true) :
      s.Effect (.lineSamplePass volts) .none s (s.linesSampled volts)
  | linesLost {volts} (h : s.loader.verified = true)
      (hc : senseChanged s.view.entries (sampledEntries volts s) = true)
      (ht : heldLineTurned .onHook s (s.linesTimed volts) = true) :
      s.Effect (.lineSamplePass volts) .full s ((s.linesTimed volts).hangUp .lineLost)
  | linesChanged {volts} (h : s.loader.verified = true)
      (hc : senseChanged s.view.entries (sampledEntries volts s) = true)
      (ht : ¬ heldLineTurned .onHook s (s.linesTimed volts) = true) :
      s.Effect (.lineSamplePass volts) .full s (watchLine s (s.linesTimed volts)).refreshTrouble
  | deadTimerExpiry {k} (h : (s.entry k).deadTimer = true) : s.Effect (.deadTimerExpiry k) .full s
      (State.refreshTrouble { s with
        view := (s.view.update k fun e => { e with dead := true, deadTimer := false }).timeAllDead })
  | allDeadTimerExpiry (h : s.view.allDead = .running) :
      s.Effect .allDeadTimerExpiry .full s { s with view := { s.view with allDead := .passed } }
  | peerIdleLimit {k} (h : (s.entry k).onHookTimer = true) : s.Effect (.peerIdleLimit k) .full s (s.holderGone k)
  | stationTimeTick (h : ¬ s.loader.inReset = true) : s.Effect .stationTimeTick .choice s { s with
      time := s.time + 1
      view := { s.view with entries := drainedEntries s.view.entries }
      zone := { s.zone with testTimer := s.zone.testTimer.map fun t => t - 1 } }
  | notBeforePasses (h : (s.queue.records.any fun r => decide (r.notBefore = s.time)) = true) :
      s.Effect .notBeforePasses .choice s s
  | nextOfferTimePasses (h : s.queue.records.any (offersNow s) = true) : s.Effect .nextOfferTimePasses .full s s
  | carryTimeout {seq r} (hr : s.queue.findSeq seq = some r) (h : handedTooLong s.time r = true) :
      s.Effect (.carryTimeout seq) .full s { s with queue := s.queue.giveBack s.time r.order }
  | busTroubleTimerExpiry (h : s.zone.busTimer = true) : s.Effect .busTroubleTimerExpiry .full s
      (State.raise busNew { s with zone := { s.zone with busTimer := false, busTrouble := true } })
  | joinPeriodEnd (h : s.rbc.join = .running) :
      s.Effect .joinPeriodEnd .none s { s with rbc := { s.rbc with join := .passed } }
  | busIdle {read} (h : (s.rbc.listens && !s.rbc.idle && decide ((s.rbc.readBits read).recessiveRun = 11)) = true) :
      s.Effect (.busIdle read) .none s { s with rbc := { s.rbc.readBits read with receiving := false } }
  | frameStart {start t} (h : s.rbc.mayStart = true) (ht : Rbc.lowestSlot s.rbc.slots = some t) :
      s.Effect (.frameStart start) .none s { s with rbc := (s.rbc.startSending t).readBit start }
  | receiveError {kind read echo}
      (h : (s.rbc.receiving && !s.rbc.stuck && kind.byReceiver && s.rbc.findsError kind read) = true) :
      s.Effect (.receiveError kind read echo) .none s { s with rbc := {
        ((s.rbc.readBits read).signalError (decide (s.rbc.confinement = .active)) echo).raiseRx with receiving := false } }
  | transmitError {kind read echo t} (ht : s.rbc.sendingSlot = some t)
      (h : (kind.byTransmitter && !s.rbc.stuck && s.rbc.losesAttempt kind t.frame read) = true) :
      s.Effect (.transmitError kind read echo) .full s (s.enterBusOff (State.afterError kind t { s with
        rbc := ((s.rbc.readFailedAttempt read echo).countFailedAttempt kind).suspendIfPassive }))
  | passiveSuspendEnd (h : (s.rbc.suspend && s.rbc.listens && s.rbc.idle) = true) :
      s.Effect .passiveSuspendEnd .none s { s with rbc := {
        s.rbc.readRecessiveTo (max 19 s.rbc.recessiveRun) with suspend := false } }
  | stuckEntry (h : (s.rbc.joined && !s.rbc.stuck) = true) : s.Effect .stuckEntry .full s
      (let ended := s.endAttempt s.sendingUnacked
       let dropped := State.dropReleases { ended with rbc := { ended.rbc with
         stuck := true, receiving := false, dominantRun := 64, recessiveRun := 0, recovery := 0 } }
       if s.solo then dropped else dropped.enterSolo)
  | stuckExit (h : s.rbc.stuck = true) : s.Effect .stuckExit .full s
      (let freed : State := { s with rbc := { s.rbc with
         stuck := false, recessiveRun := 11, dominantRun := 0, recovery := if s.rbc.busOff then 11 else 0 } }
       if s.rbc.busOff then freed else freed.leaveSolo)
  | busOffRecovery {read}
      (h : (s.rbc.busOff && !s.rbc.stuck && decide ((s.rbc.readBits read).recovery = 2048)) = true) :
      s.Effect (.busOffRecovery read) .full s (State.leaveSolo { s with rbc := { s.rbc.readBits read with
        txErrors := 0, rxErrors := 0, recovery := 0, receiving := false } })
  | clash {c f acked} (hc : isReceipt c = true) (h : (s.rbc.receiving && !s.rbc.stuck) = true) : s.Effect c .frames s
      { s.heard f acked with ind := { s.ind with addressClash := true } }
  | unread {c f acked} (hc : isReceipt c = true) (h : (s.rbc.receiving && !s.rbc.stuck) = true) :
      s.Effect c .none s (s.heard f acked)
  | claimReceived {value payload acked f} (h : (s.rbc.receiving && !s.rbc.stuck) = true)
      (hf : readClaim value payload = some f) : s.Effect (.claimReceived value payload acked) .full
        (s.heard (receivedFrame .claim value payload) acked)
        ((s.heard (receivedFrame .claim value payload) acked).takeClaim f)
  | objectReceived {value payload acked f} (h : (s.rbc.receiving && !s.rbc.stuck) = true)
      (hf : readObject value payload = some f) : s.Effect (.objectReceived value payload acked) .full
        (s.heard (receivedFrame .object value payload) acked)
        ((s.heard (receivedFrame .object value payload) acked).takeObject f)
  | releaseReceived {value payload acked f} (h : (s.rbc.receiving && !s.rbc.stuck) = true)
      (hf : readRelease value payload = some f) : s.Effect (.releaseReceived value payload acked) .full
        (s.heard (receivedFrame .release value payload) acked)
        ((s.heard (receivedFrame .release value payload) acked).takeRelease f)
  | offerReceived {value payload acked f} (h : (s.rbc.receiving && !s.rbc.stuck) = true)
      (hf : readOffer value payload = some f) : s.Effect (.offerReceived value payload acked) .frames
        (s.heard (receivedFrame .offer value payload) acked)
        ((s.heard (receivedFrame .offer value payload) acked).takeOffer f)
  | acceptReceived {value payload acked f} (h : (s.rbc.receiving && !s.rbc.stuck) = true)
      (hf : readAccept value payload = some f) : s.Effect (.acceptReceived value payload acked) .frames
        (s.heard (receivedFrame .accept value payload) acked)
        ((s.heard (receivedFrame .accept value payload) acked).takeAccept f)
  | carryReceived {value payload acked f} (h : (s.rbc.receiving && !s.rbc.stuck) = true)
      (hf : readCarry value payload = some f) : s.Effect (.carryReceived value payload acked) .full
        (s.heard (receivedFrame .carry value payload) acked)
        ((s.heard (receivedFrame .carry value payload) acked).takeCarry f)
  | outcomeReceived {value payload acked f} (h : (s.rbc.receiving && !s.rbc.stuck) = true)
      (hf : readOutcome value payload = some f) : s.Effect (.outcomeReceived value payload acked) .full
        (s.heard (receivedFrame .outcome value payload) acked)
        ((s.heard (receivedFrame .outcome value payload) acked).takeOutcome f)
  | stateReceived {value payload acked f} (h : (s.rbc.receiving && !s.rbc.stuck) = true)
      (hf : readState value payload = some f) : s.Effect (.stateReceived value payload acked) .frames
        (s.heard (receivedFrame .state value payload) acked)
        ((s.heard (receivedFrame .state value payload) acked).takeState f)
  | sent {c type t} (hc : sentType c = some type) (ht : s.rbc.sendingSlot = some t) (h : t.frame.type = type) :
      s.Effect c .full s (State.concludeSending t { s with
        rbc := (s.rbc.readRecessiveAfterDominant 9).lowerTx.suspendIfPassive })
  | pendingGuardPasses {k} (h : guardRunning (s.entry k) = true) :
      s.Effect (.pendingGuardPasses k) .full s { s with view := s.view.update k Entry.passGuard }
  | ownGuardPasses {k} (hk : s.view.ownLine = some k) (h : (s.entry k).ownGuard = .running) :
      s.Effect .ownGuardPasses .full s
        (let passed : State := { s with view := s.view.update k Entry.passOwnGuard }
         if (s.entry k).holder.isNone then passed.reportGuardDone else passed)
  | yieldLimitExpiry {k} (h : yieldLimitRunning (s.entry k) = true) :
      s.Effect (.yieldLimitExpiry k) .full s { s with view := s.view.update k Entry.passYieldLimit }
  | yieldWaitExpiry {k} (hk : s.view.ownLine = some k)
      (h : s.call.state = .claim ∧ (s.entry k).waitingOnHolder = true ∧ (s.entry k).ownGuard = .passed) :
      s.Effect .yieldWaitExpiry .full s (s.holderGone k)
  | offerWindowExpiry {o} (ho : s.carry.offer = some o) (h : o.phase = .window) :
      s.Effect .offerWindowExpiry .full s (s.offerUnanswered o)
  | acceptPendingTimeout (h : s.carry.accept.isSome = true) : s.Effect .acceptPendingTimeout .frames s s.endAccept
  | stateSpacingExpiry (h : s.ind.spacing = true) :
      s.Effect .stateSpacingExpiry .frames s { s with ind := { s.ind with spacing := false } }
  | clockWarm {hertz} (h : s.clock.state = .warming ∧ s.clock.warmTimer = .running) (ho : oscillatorCheck hertz = true) :
      s.Effect (.warmTimeReached hertz) .none s s.clockReady
  | clockUnsteady {hertz} (h : s.clock.state = .warming ∧ s.clock.warmTimer = .running)
      (ho : ¬ oscillatorCheck hertz = true) : s.Effect (.warmTimeReached hertz) .none s
        { s with clock := { s.clock with warmTimer := .passed, steady := false } }
  | clockSteady (h : s.clock.state = .warming) (hp : s.clock.warmTimer = .passed) :
      s.Effect .oscillatorSteady .none s s.clockReady
  | clockEarly (h : s.clock.state = .warming) (hp : ¬ s.clock.warmTimer = .passed) :
      s.Effect .oscillatorSteady .none s { s with clock := { s.clock with steady := true } }
  | clockFailInClaim {k} (h : s.clock.state = .warming) (hs : s.call.state = .claim) (hk : s.call.line = some k) :
      s.Effect .fastClockFail .full s (s.clockFailed.abandonForClock k)
  | clockFail (h : s.clock.state = .warming) (hn : s.call.state = .claim → s.call.line = none) :
      s.Effect .fastClockFail .full s s.clockFailed
  | clockRelease (h : s.clock.releaseTimer = true) (ha : s.clock.state = .active) :
      s.Effect .fastClockRelease .none s { s with
        clock := { s.clock with state := .quiet, releaseTimer := false, steady := false }
        tone := { s.tone with cls := .none } }
  | clockReleaseIdle (h : s.clock.releaseTimer = true) (ha : ¬ s.clock.state = .active) :
      s.Effect .fastClockRelease .none s { s with clock := { s.clock with releaseTimer := false } }
  | bargeClearingEnd {k} (hk : s.call.line = some k) (h : s.timing .seize .bargeClearing = true) :
      s.Effect .bargeClearingEnd .none s (s.closeHook k)
  | dialToneJudged (h : (s.timing .seize .dialToneWait && decide (s.tone.cls = .dial)) = true) :
      s.Effect .dialToneJudged .full s (s.lineProved.enterDial).refreshTrouble
  | dialToneWaitExpiry (h : s.timing .seize .dialToneWait = true) :
      s.Effect .dialToneWaitExpiry .full s (s.hangUp .noDialTone)
  | digitEnd (h : s.timing .dial .digit = true) : s.Effect .digitEnd .none s (s.dialFrom s.call.digits.tail)
  | toneClassChange {audio ms silent} (h : (s.hearing && decide (s.classHeard audio silent ≠ s.tone.cls)) = true) :
      s.Effect (.toneClassChange audio ms silent) .none s (s.hear (s.classHeard audio silent) ms)
  | toneGapLimit {ms} (h : (s.hearing && decide (s.tone.cls ≠ .none)) = true) :
      s.Effect (.toneGapLimit ms) .none s (s.hear .none ms)
  | busyPeriodLimit (h : s.call.state = .handshake ∧ (s.tone.cls = .dial ∨ s.tone.cls = .none)) :
      s.Effect .busyPeriodLimit .none s { s with tone := { s.tone with busyCycles := 0, dialHalf := false } }
  | busyCadence (h : s.call.state = .handshake ∧ s.tone.busyCycles = 3)
      (hw : s.timing .handshake .handshakeWait = true) :
      s.Effect .busyCadence .full s (s.cadenceReported.hangUp .centreBusy)
  | busyCadenceUnread (h : s.call.state = .handshake ∧ s.tone.busyCycles = 3)
      (hw : ¬ s.timing .handshake .handshakeWait = true) : s.Effect .busyCadence .none s s.cadenceReported
  | handshakeJudged (h : (s.timing .handshake .handshakeWait && decide (s.tone.cls = .handshake)) = true) :
      s.Effect .handshakeJudged .none s { s with call := { s.call with timer := some .settle } }
  | handshakeWaitExpiry (h : s.timing .handshake .handshakeWait = true) :
      s.Effect .handshakeWaitExpiry .full s (s.hangUp .noHandshake)
  | settleEnd {r} (hr : s.callInHand = some r) (h : s.timing .handshake .settle = true) :
      s.Effect .settleEnd .none s (s.enterSend r)
  | sendEnd (h : s.timing .send .symbols = true) : s.Effect .sendEnd .none s
      { s with call := { s.call with state := .kissoff, timer := some .kissoffWait, block := [] } }
  | kissoffJudged {r} (hr : s.callInHand = some r)
      (h : (s.timing .kissoff .kissoffWait && decide (s.tone.cls = .kissoff)) = true) :
      s.Effect .kissoffJudged .full s (s.deliverInHand r).afterDelivery
  | kissoffResend {r} (hr : s.callInHand = some r) (h : s.timing .kissoff .kissoffWait = true)
      (hn : s.call.sends < 4) : s.Effect .kissoffWaitExpiry .none s (s.enterSend r)
  | kissoffFailed {r} (hr : s.callInHand = some r) (h : s.timing .kissoff .kissoffWait = true)
      (hn : ¬ s.call.sends < 4) : s.Effect .kissoffWaitExpiry .full s (s.hangUp .noKissoff)
  | betweenMessagesEnd {r} (hr : s.callInHand = some r) (h : s.timing .kissoff .betweenMessages = true) :
      s.Effect .betweenMessagesEnd .none s (s.enterSend r)
  | lineLostTimerExpiry (h : s.call.lineLost = true) : s.Effect .lineLostTimerExpiry .full s (s.hangUp .lineLost)
  | hangUpHoldEnd {k} (hk : s.call.line = some k) (h : s.timing .hangup .hold = true) :
      s.Effect .hangUpHoldEnd .full s (s.clearOwnFields k).enterIdle
  | startOfFrameReceived (h : (s.rbc.listens && s.rbc.idle) = true) : s.Effect .startOfFrameReceived .none s
      { s with rbc := { s.rbc.readDominant 1 with receiving := true, suspend := false, frameBits := [] } }
  | arbitrationLost {read t} (ht : s.rbc.sendingSlot = some t)
      (h : (t.frame.lostBy read && !s.rbc.startFailed) = true) : s.Effect (.arbitrationLost read) .frames s
        (let ended := s.endAttempt t.unacked
         { ended with rbc := { (ended.rbc.readBits read).suspendIfPassive with receiving := true, frameBits := read } })

/-- An outcome of a command is one of its effects, its step closed. -/
def State.Does (s : State) (c : Instr) (o : Outcome State Fault Refusal) : Prop :=
  ∃ e b u, o = .next (e.close b u) ∧ s.Effect c e b u

namespace State.Does

variable {s : State} {c : Instr}

theorem of {o : Outcome State Fault Refusal} {e : Ending} {b u : State} (h : s.Effect c e b u)
    (ho : o = .next (e.close b u) := by rfl) : s.Does c o := ⟨e, b, u, ho, h⟩

theorem idle : s.Does c (.next s) := of .idle

/-- A guard of the model: where it does not hold nothing changes (log entry 1). -/
theorem guarded {p : Prop} [Decidable p] {o : Outcome State Fault Refusal} (h : p → s.Does c o) :
    s.Does c (if p then o else .next s) := by
  split
  next hp => exact h hp
  next => exact idle

/-- A choice of the model between two effects. -/
theorem either {p : Prop} [Decidable p] {o o' : Outcome State Fault Refusal} (h : p → s.Does c o)
    (h' : ¬ p → s.Does c o') : s.Does c (if p then o else o') := by
  split
  next hp => exact h hp
  next hn => exact h' hn

/-- A frame received: in reception alone it has an effect; it clashes, has no fields to read, or is taken (R87, R96). -/
theorem received {α : Type} {f : Frame} {acked : Bool} {fields : Option α} {take : α → State → State}
    (hc : isReceipt c = true)
    (h : (s.rbc.receiving && !s.rbc.stuck) = true → ∀ x, fields = some x → s.Does c (.next (take x (s.heard f acked)))) :
    s.Does c (.next (s.receiveFrame f acked fields take)) := by
  unfold State.receiveFrame
  split
  next hr =>
    dsimp only
    split
    next => exact of (.clash hc hr)
    next =>
      cases fields with
      | some x => exact h hr x rfl
      | none => exact of (.unread hc hr)
  next => exact idle

/-- An own frame's end, for each of the eight commands that bring one (R82). -/
theorem sent {type : FrameType} (hc : sentType c = some type) : s.Does c (.next (s.sent type)) := by
  unfold State.sent
  split
  next => exact idle
  next t ht =>
    split
    next h => exact of (.sent hc ht h)
    next => exact idle

end State.Does

/-- What a command can do, in every state. -/
theorem exec_does (c : Instr) (s : State) : s.Does c (exec c s) := by
  cases c with
  | reset => exact .of .reset
  | releaseOfReset straps =>
    simp only [exec, execReleaseOfReset]
    exact .guarded fun h => .of (.releaseOfReset h)
  | configReadDone image =>
    simp only [exec, execConfigReadDone]
    exact .guarded fun h => .of (.configReadDone h)
  | zoneSamplePass loops =>
    exact .guarded fun h => .either (fun hn => .of (.zonesQuiet h hn)) fun hn => .of (.zonesChanged h hn)
  | testTimerExpiry =>
    simp only [exec, execTestTimerExpiry]
    exact .guarded fun h => .of (.testTimerExpiry h)
  | lineSamplePass volts =>
    exact .guarded fun h => .either
      (fun hc => .either (fun ht => .of (.linesLost h hc ht)) fun ht => .of (.linesChanged h hc ht))
      fun hn => .of (.linesQuiet h hn)
  | deadTimerExpiry k =>
    simp only [exec, execDeadTimerExpiry]
    exact .guarded fun h => .of (.deadTimerExpiry h)
  | allDeadTimerExpiry =>
    simp only [exec, execAllDeadTimerExpiry]
    exact .guarded fun h => .of (.allDeadTimerExpiry h)
  | peerIdleLimit k =>
    simp only [exec, execPeerIdleLimit]
    exact .guarded fun h => .of (.peerIdleLimit h)
  | stationTimeTick =>
    simp only [exec, execStationTimeTick]
    exact .either (fun _ => .idle) fun h => .of (.stationTimeTick h)
  | notBeforePasses =>
    simp only [exec, execNotBeforePasses]
    exact .guarded fun h => .of (.notBeforePasses h)
  | nextOfferTimePasses =>
    simp only [exec, execNextOfferTimePasses]
    exact .guarded fun h => .of (.nextOfferTimePasses h)
  | carryTimeout seq =>
    change s.Does _ (execCarryTimeout seq s)
    unfold execCarryTimeout
    split
    next r hr => exact .guarded fun h => .of (.carryTimeout hr h)
    next => exact .idle
  | busTroubleTimerExpiry =>
    simp only [exec, execBusTroubleTimerExpiry]
    exact .guarded fun h => .of (.busTroubleTimerExpiry h)
  | joinPeriodEnd =>
    simp only [exec, execJoinPeriodEnd]
    exact .guarded fun h => .of (.joinPeriodEnd h)
  | busIdle read =>
    simp only [exec, execBusIdle]
    exact .guarded fun h => .of (.busIdle h)
  | frameStart start =>
    refine .guarded fun h => ?_
    split
    next t ht => exact .of (.frameStart h ht)
    next => exact .idle
  | receiveError kind read echo =>
    simp only [exec, execReceiveError]
    exact .guarded fun h => .of (.receiveError h)
  | transmitError kind read echo =>
    change s.Does _ (execTransmitError kind s read echo)
    unfold execTransmitError
    split
    next => exact .idle
    next t ht => exact .guarded fun h => .of (.transmitError ht h)
  | passiveSuspendEnd =>
    simp only [exec, execPassiveSuspendEnd]
    exact .guarded fun h => .of (.passiveSuspendEnd h)
  | stuckEntry =>
    simp only [exec, execStuckEntry]
    exact .guarded fun h => .of (.stuckEntry h)
  | stuckExit =>
    simp only [exec, execStuckExit]
    exact .guarded fun h => .of (.stuckExit h)
  | busOffRecovery read =>
    simp only [exec, execBusOffRecovery]
    exact .guarded fun h => .of (.busOffRecovery h)
  | claimReceived value payload acked => exact .received rfl fun h _ hf => .of (.claimReceived h hf)
  | objectReceived value payload acked => exact .received rfl fun h _ hf => .of (.objectReceived h hf)
  | releaseReceived value payload acked => exact .received rfl fun h _ hf => .of (.releaseReceived h hf)
  | offerReceived value payload acked => exact .received rfl fun h _ hf => .of (.offerReceived h hf)
  | acceptReceived value payload acked => exact .received rfl fun h _ hf => .of (.acceptReceived h hf)
  | carryReceived value payload acked => exact .received rfl fun h _ hf => .of (.carryReceived h hf)
  | outcomeReceived value payload acked => exact .received rfl fun h _ hf => .of (.outcomeReceived h hf)
  | stateReceived value payload acked => exact .received rfl fun h _ hf => .of (.stateReceived h hf)
  | claimSent => exact .sent rfl
  | objectSent => exact .sent rfl
  | releaseSent => exact .sent rfl
  | offerSent => exact .sent rfl
  | acceptSent => exact .sent rfl
  | carrySent => exact .sent rfl
  | outcomeSent => exact .sent rfl
  | stateSent => exact .sent rfl
  | pendingGuardPasses k =>
    simp only [exec, execPendingGuardPasses]
    exact .guarded fun h => .of (.pendingGuardPasses h)
  | ownGuardPasses =>
    change s.Does _ (execOwnGuardPasses s)
    unfold execOwnGuardPasses
    split
    next k hk => exact .guarded fun h => .of (.ownGuardPasses hk h)
    next => exact .idle
  | yieldLimitExpiry k =>
    simp only [exec, execYieldLimitExpiry]
    exact .guarded fun h => .of (.yieldLimitExpiry h)
  | yieldWaitExpiry =>
    change s.Does _ (execYieldWaitExpiry s)
    unfold execYieldWaitExpiry
    split
    next k hk => exact .guarded fun h => .of (.yieldWaitExpiry hk h)
    next => exact .idle
  | offerWindowExpiry =>
    change s.Does _ (execOfferWindowExpiry s)
    unfold execOfferWindowExpiry
    split
    next o ho => exact .guarded fun h => .of (.offerWindowExpiry ho h)
    next => exact .idle
  | acceptPendingTimeout =>
    simp only [exec, execAcceptPendingTimeout]
    exact .guarded fun h => .of (.acceptPendingTimeout h)
  | stateSpacingExpiry =>
    simp only [exec, execStateSpacingExpiry]
    exact .guarded fun h => .of (.stateSpacingExpiry h)
  | warmTimeReached hertz =>
    exact .guarded fun h => .either (fun ho => .of (.clockWarm h ho)) fun ho => .of (.clockUnsteady h ho)
  | oscillatorSteady =>
    exact .guarded fun h => .either (fun hp => .of (.clockSteady h hp)) fun hp => .of (.clockEarly h hp)
  | fastClockFail =>
    refine .guarded fun h => ?_
    split
    next k hs hk => exact .of (.clockFailInClaim h hs hk)
    next hn =>
      refine .of (.clockFail h fun hs => ?_)
      cases hk : s.call.line with
      | none => rfl
      | some k => exact absurd hk (hn k hs)
  | fastClockRelease =>
    exact .guarded fun h => .either (fun ha => .of (.clockRelease h ha)) fun ha => .of (.clockReleaseIdle h ha)
  | bargeClearingEnd =>
    change s.Does _ (execBargeClearingEnd s)
    unfold execBargeClearingEnd
    split
    next k hk => exact .guarded fun h => .of (.bargeClearingEnd hk h)
    next => exact .idle
  | dialToneJudged =>
    simp only [exec, execDialToneJudged]
    exact .guarded fun h => .of (.dialToneJudged h)
  | dialToneWaitExpiry =>
    simp only [exec, execDialToneWaitExpiry]
    exact .guarded fun h => .of (.dialToneWaitExpiry h)
  | digitEnd =>
    simp only [exec, execDigitEnd]
    exact .guarded fun h => .of (.digitEnd h)
  | toneClassChange audio ms silent =>
    simp only [exec, execToneClassChange]
    exact .guarded fun h => .of (.toneClassChange h)
  | toneGapLimit ms =>
    simp only [exec, execToneGapLimit]
    exact .guarded fun h => .of (.toneGapLimit h)
  | busyPeriodLimit =>
    simp only [exec, execBusyPeriodLimit]
    exact .guarded fun h => .of (.busyPeriodLimit h)
  | busyCadence =>
    exact .guarded fun h => .either (fun hw => .of (.busyCadence h hw)) fun hw => .of (.busyCadenceUnread h hw)
  | handshakeJudged =>
    simp only [exec, execHandshakeJudged]
    exact .guarded fun h => .of (.handshakeJudged h)
  | handshakeWaitExpiry =>
    simp only [exec, execHandshakeWaitExpiry]
    exact .guarded fun h => .of (.handshakeWaitExpiry h)
  | settleEnd =>
    change s.Does _ (execSettleEnd s)
    unfold execSettleEnd
    split
    next r hr => exact .guarded fun h => .of (.settleEnd hr h)
    next => exact .idle
  | sendEnd =>
    simp only [exec, execSendEnd]
    exact .guarded fun h => .of (.sendEnd h)
  | kissoffJudged =>
    change s.Does _ (execKissoffJudged s)
    unfold execKissoffJudged
    split
    next r hr => exact .guarded fun h => .of (.kissoffJudged hr h)
    next => exact .idle
  | kissoffWaitExpiry =>
    change s.Does _ (execKissoffWaitExpiry s)
    unfold execKissoffWaitExpiry
    split
    next r hr =>
      exact .guarded fun h => .either (fun hn => .of (.kissoffResend hr h hn)) fun hn => .of (.kissoffFailed hr h hn)
    next => exact .idle
  | betweenMessagesEnd =>
    change s.Does _ (execBetweenMessagesEnd s)
    unfold execBetweenMessagesEnd
    split
    next r hr => exact .guarded fun h => .of (.betweenMessagesEnd hr h)
    next => exact .idle
  | lineLostTimerExpiry =>
    simp only [exec, execLineLostTimerExpiry]
    exact .guarded fun h => .of (.lineLostTimerExpiry h)
  | hangUpHoldEnd =>
    change s.Does _ (execHangUpHoldEnd s)
    unfold execHangUpHoldEnd
    split
    next k hk => exact .guarded fun h => .of (.hangUpHoldEnd hk h)
    next => exact .idle
  | startOfFrameReceived =>
    simp only [exec, execStartOfFrameReceived]
    exact .guarded fun h => .of (.startOfFrameReceived h)
  | arbitrationLost read =>
    change s.Does _ (execArbitrationLost s read)
    unfold execArbitrationLost
    split
    next => exact .idle
    next t ht => exact .guarded fun h => .of (.arbitrationLost ht h)

/-- The same as an inversion: what a next state is. -/
theorem exec_effect {c : Instr} {s t : State} (h : exec c s = .next t) : ∃ e b u, t = e.close b u ∧ s.Effect c e b u := by
  obtain ⟨e, b, u, hx, hu⟩ := exec_does c s
  exact ⟨e, b, u, Outcome.next.inj (h.symm.trans hx), hu⟩

end Sys2Proof.Machine

/-! ### What no command but a few touches

`State.Keeps` gathers what every shared operation leaves: the loader, station time, the commands that wait, the zones,
and the two latches. It holds of every effect but those of reset, start-up, the tick and a zone pass. -/

namespace Sys2Proof.Machine

open Host

/-- What the operations of the call, the claims, the queue and the bus leave as it was; a latch set stays set. -/
structure State.Keeps (s t : State) : Prop where
  loader : t.loader = s.loader
  time : t.time = s.time
  pending : t.pending = s.pending
  zones : t.zone.zones = s.zone.zones
  sampling : t.zone.sampling = s.zone.sampling
  latch : s.clock.latch = true → t.clock.latch = true
  clash : s.ind.addressClash = true → t.ind.addressClash = true

namespace State.Keeps

variable {s t u : State}

theorem refl (s : State) : s.Keeps s := ⟨rfl, rfl, rfl, rfl, rfl, id, id⟩

theorem trans (h : s.Keeps t) (g : t.Keeps u) : s.Keeps u where
  loader := g.loader.trans h.loader
  time := g.time.trans h.time
  pending := g.pending.trans h.pending
  zones := g.zones.trans h.zones
  sampling := g.sampling.trans h.sampling
  latch hl := g.latch (h.latch hl)
  clash hc := g.clash (h.clash hc)

/-- An operation whose field lemmas say all of it. -/
theorem of_same (h : t.loader = s.loader ∧ t.time = s.time ∧ t.pending = s.pending ∧ t.zone = s.zone ∧
    t.clock.latch = s.clock.latch ∧ t.ind.addressClash = s.ind.addressClash) : s.Keeps t := by
  obtain ⟨hl, ht, hp, hz, hc, hi⟩ := h
  exact ⟨hl, ht, hp, by rw [hz], by rw [hz], fun h => hc.trans h, fun h => hi.trans h⟩

/-- The same, with an operation after it that keeps the rest. -/
theorem after (g : t.Keeps u) (h : t.loader = s.loader ∧ t.time = s.time ∧ t.pending = s.pending ∧ t.zone = s.zone ∧
    t.clock.latch = s.clock.latch ∧ t.ind.addressClash = s.ind.addressClash) : s.Keeps u :=
  (of_same h).trans g

/-- The same, with an operation before it that keeps the rest. -/
theorem next (g : s.Keeps t) (h : u.loader = t.loader ∧ u.time = t.time ∧ u.pending = t.pending ∧ u.zone = t.zone ∧
    u.clock.latch = t.clock.latch ∧ u.ind.addressClash = t.ind.addressClash) : s.Keeps u :=
  g.trans (of_same h)

theorem of_settled (h : State.Settled s t) : s.Keeps t :=
  of_same ⟨h.loader, h.time, h.pending, h.zone, h.latch, h.clash⟩

theorem of_hungUp {k : LineId} {o : CallOutcome} (h : State.HungUp k o s t) : s.Keeps t :=
  of_same ⟨h.loader, h.time, h.pending, h.zone, by rw [h.clock], h.clash⟩

end State.Keeps

/-- The end of a step keeps all of it. -/
theorem Ending.close_settled (e : Ending) (b u : State) : State.Settled u (e.close b u) := by
  cases e with
  | none => exact State.Settled.refl u
  | frames => exact (State.settleFrames_framesOnly b u).settled
  | choice => exact State.settleChoice_settled b u
  | full => exact State.settle_settled b u

/-! ### The shared operations -/

section
variable (s : State)

@[simp] theorem State.requestClock_latch : s.requestClock.clock.latch = s.clock.latch := by
  unfold State.requestClock
  split
  · split <;> rfl
  · rfl
  · simp

@[simp] theorem State.enterIdle_latch : s.enterIdle.clock.latch = s.clock.latch := rfl

@[simp] theorem State.giveUpCall_latch : s.giveUpCall.clock.latch = s.clock.latch := by simp [State.giveUpCall]

@[simp] theorem State.rechoose_latch : s.rechoose.clock.latch = s.clock.latch := by
  unfold State.rechoose
  (repeat' split) <;> simp

@[simp] theorem State.abandonInClaim_latch (k : LineId) : (s.abandonInClaim k).clock.latch = s.clock.latch := by
  simp [State.abandonInClaim]

theorem State.hangUp_keepsBase (o : CallOutcome) : s.Keeps (s.hangUp o) := by
  cases hk : s.call.line with
  | none => rw [State.hangUp, hk]; exact .refl s
  | some k => exact .of_hungUp (State.hangUp_hungUp k o s hk)

theorem State.takeYield_keeps : s.Keeps s.takeYield := by
  unfold State.takeYield
  split
  case h_5 => split; exacts [s.hangUp_keepsBase _, .refl s]
  all_goals first | exact s.hangUp_keepsBase _ | exact .refl s

theorem State.setYield_keeps : s.Keeps s.setYield := by
  unfold State.setYield
  split
  · exact .refl s
  · exact (State.Keeps.of_same (t := { s with call := { s.call with yieldPending := true } }) (by simp)).trans
      (State.takeYield_keeps _)

theorem State.abandonInClaim_keeps (k : LineId) : s.Keeps (s.abandonInClaim k) := .of_same (by simp)

theorem State.claimIntoSolo_keeps : s.Keeps s.claimIntoSolo := by
  unfold State.claimIntoSolo
  split
  · split
    · split
      · exact .of_same (by simp)
      · exact s.abandonInClaim_keeps _
    · split
      · dsimp only; split <;> exact .of_same (by simp)
      · exact .refl s
  · exact .refl s

theorem State.enterSolo_keeps : s.Keeps s.enterSolo :=
  State.Keeps.trans (t := { s with zone := { s.zone with busTimer := true } }) ⟨rfl, rfl, rfl, rfl, rfl, id, id⟩
    (State.claimIntoSolo_keeps _)

theorem State.leaveSolo_keeps : s.Keeps s.leaveSolo := by
  have hz : s.leaveSolo.zone = { s.zone with busTimer := false, busTrouble := false } := by
    unfold State.leaveSolo
    dsimp only
    split <;> simp
  exact ⟨by simp, by simp, by simp, by rw [hz], by rw [hz], by simp, by simp⟩

theorem State.frameEnded_keeps (t : Slot) : s.Keeps (s.frameEnded t) := by
  unfold State.frameEnded
  split
  · unfold State.claimEnded; split <;> exact .of_same (by simp)
  · exact .refl s
  · exact .of_same ⟨rfl, rfl, rfl, rfl, rfl, rfl⟩
  · unfold State.offerEnded; split <;> exact .of_same (by simp)
  · exact .refl s
  · unfold State.carryEnded
    split
    · split <;> exact .of_same (by simp)
    · exact .refl s
  · exact .refl s
  · exact .of_same ⟨rfl, rfl, rfl, rfl, rfl, rfl⟩

theorem State.concludeSending_keeps (t : Slot) : s.Keeps (s.concludeSending t) :=
  State.Keeps.trans (.of_same (t := { s with rbc := s.rbc.dropSending, carry := s.carry.slotEmptied t.marker }) (by simp))
    (State.frameEnded_keeps _ t)

theorem State.afterError_keeps (kind : ErrorKind) (t : Slot) : s.Keeps (s.afterError kind t) := by
  unfold State.afterError
  split
  · split
    · exact s.concludeSending_keeps t
    · exact .of_same (by simp)
  · exact .of_same (by simp)

theorem State.enterBusOff_keeps (before : State) : s.Keeps (before.enterBusOff s) := by
  unfold State.enterBusOff
  split
  · dsimp only
    split
    · exact .of_same (by simp)
    · exact State.Keeps.after (t := State.dropReleases { s with rbc := { s.rbc with recovery := 0 } })
        (State.enterSolo_keeps _) (by simp)
  · exact .refl s

theorem State.countAttempt_keeps (r : Record) (also : Record → Record) : s.Keeps (s.countAttempt r also).1 := by
  unfold State.countAttempt
  dsimp only
  rw [State.checkAttempts_keeps]
  exact .of_same (by simp)

theorem State.offerUnanswered_keeps (o : Offer) : s.Keeps (s.offerUnanswered o) := by
  unfold State.offerUnanswered
  dsimp only
  split
  · exact .of_same (by simp)
  · next r _ =>
    have hended : s.Keeps { s with carry := { s.carry with offer := none } } := .of_same (by simp)
    have hcounted : ∀ a : State, a.Keeps (a.countUnanswered r).1 := fun a => by
      unfold State.countUnanswered
      split
      · exact a.countAttempt_keeps r _
      · exact .of_same (by simp)
    exact (hended.trans (hcounted _)).next (by simp)

theorem State.clockReady_keeps : s.Keeps s.clockReady := 
  .of_same (by simp [State.clockReady])

theorem State.clockFailed_keeps : s.Keeps s.clockFailed := ⟨rfl, rfl, rfl, rfl, rfl, fun _ => rfl, id⟩

theorem State.abandonForClock_keeps (k : LineId) : s.Keeps (s.abandonForClock k) := by
  unfold State.abandonForClock
  split <;> exact .of_same (by simp)

theorem State.dialFrom_keeps (digits : List DialDigit) : s.Keeps (s.dialFrom digits) := by
  unfold State.dialFrom
  split <;> exact .of_same (by simp)

theorem State.enterDial_keeps : s.Keeps s.enterDial := .after (State.dialFrom_keeps _ _) (by simp)

theorem State.lineProved_keeps : s.Keeps s.lineProved := by
  unfold State.lineProved
  split <;> exact .of_same (by simp)

theorem State.hear_keeps (next : ToneClass) (ms : Nat) : s.Keeps (s.hear next ms) := by
  unfold State.hear
  split <;> exact .of_same (by simp)

theorem State.afterDelivery_keeps : s.Keeps s.afterDelivery := by
  unfold State.afterDelivery
  split
  · exact s.hangUp_keepsBase _
  · split
    · split
      · exact .of_same ⟨rfl, rfl, rfl, rfl, rfl, rfl⟩
      · exact s.hangUp_keepsBase _
    · exact s.hangUp_keepsBase _

theorem State.deliverInHand_keeps (r : Record) : s.Keeps (s.deliverInHand r) :=
  .of_same ⟨State.deliver_loader s r, State.deliver_time s r, State.deliver_pending s r, State.deliver_zone s r,
    by simp [State.deliverInHand], by simp [State.deliverInHand]⟩

theorem State.cadenceReported_keeps : s.Keeps s.cadenceReported := ⟨rfl, rfl, rfl, rfl, rfl, id, id⟩

theorem State.linesSampled_keeps (volts : Four Int) : s.Keeps (s.linesSampled volts) :=
  ⟨rfl, rfl, rfl, rfl, rfl, id, id⟩

theorem State.linesTimed_keeps (volts : Four Int) : s.Keeps (s.linesTimed volts) := ⟨rfl, rfl, rfl, rfl, rfl, id, id⟩

theorem watchLine_keeps (before : State) : s.Keeps (watchLine before s) := by
  unfold watchLine
  split
  · exact .of_same (by simp)
  · split <;> exact .of_same (by simp)

/-! ### The frames received -/

theorem State.heard_keeps (f : Frame) (acked : Bool) : s.Keeps (s.heard f acked) := ⟨rfl, rfl, rfl, rfl, rfl, id, id⟩

theorem State.recordClaim_keeps (f : ClaimFields) : s.Keeps (s.recordClaim f) := ⟨rfl, rfl, rfl, rfl, rfl, id, id⟩

theorem State.takeClaim_keeps (f : ClaimFields) : s.Keeps (s.takeClaim f) := by
  unfold State.takeClaim
  split
  · exact .refl s
  · split
    · split
      · unfold State.surrenderTo State.recordClaim
        exact .of_same (by simp)
      · unfold State.answerClaim
        split
        · exact .trans (s.recordClaim_keeps f) (State.setYield_keeps _)
        · exact .of_same (by simp)
    · exact s.recordClaim_keeps f

theorem State.takeObject_keeps (f : ClaimFields) : s.Keeps (s.takeObject f) := by
  unfold State.takeObject
  split
  · exact .refl s
  · dsimp only
    have hviewed : s.Keeps { s with view := s.view.update f.line (Entry.observeObject f.addr f.key) } := .of_same (by simp)
    split
    · refine hviewed.trans ?_
      unfold State.takeObjection
      split <;> first | exact State.abandonInClaim_keeps _ _ | exact State.hangUp_keepsBase _ _ | exact .refl _
    · exact hviewed

theorem State.takeRelease_keeps (f : ReleaseFields) : s.Keeps (s.takeRelease f) := by
  unfold State.takeRelease
  split
  · exact .refl s
  · split <;> exact .of_same (by simp)

theorem State.takeOffer_keeps (f : OfferFields) : s.Keeps (s.takeOffer f) := by
  unfold State.takeOffer
  split
  · split
    · exact ⟨rfl, rfl, rfl, rfl, rfl, id, id⟩
    · exact .refl s
  · exact .refl s

theorem State.dropBid_keeps (origin : Nat) (seq : Byte) : s.Keeps (s.dropBid origin seq) := by
  unfold State.dropBid
  split
  · exact .of_settled s.endAccept_settled
  · exact .refl s

theorem State.takeAccept_keeps (f : AcceptFields) : s.Keeps (s.takeAccept f) := by
  unfold State.takeAccept
  split
  · split
    · unfold State.acceptOffer
      split <;> exact .of_same (by simp)
    · exact .refl s
  · exact s.dropBid_keeps _ _

theorem State.takeInCarry_keeps (f : CarryFields) : s.Keeps (s.takeInCarry f) := by
  unfold State.takeInCarry
  split
  · exact .refl s
  · split <;> exact .of_same (by simp)

theorem State.takeCarry_keeps (f : CarryFields) : s.Keeps (s.takeCarry f) := by
  unfold State.takeCarry
  dsimp only
  split
  · exact (s.dropBid_keeps _ _).trans (State.takeInCarry_keeps _ f)
  · exact s.dropBid_keeps _ _

theorem State.takeOutcome_keeps (f : OutcomeFields) : s.Keeps (s.takeOutcome f) := by
  unfold State.takeOutcome
  split
  · split
    · split
      · unfold State.outcomeDelivered
        split <;> exact .of_same (by simp)
      · unfold State.outcomeReturned
        split
        · split <;> exact .of_same (by simp)
        all_goals exact .refl s
    · exact .refl s
  · exact .refl s

theorem State.takeState_keeps (f : StateFields) : s.Keeps (s.takeState f) := by
  unfold State.takeState
  split
  · have hmarked : s.Keeps (State.dropOutcomes f.sender { s with queue := { s.queue with
        records := s.queue.records.map (orphan f.sender) } }) := .of_same ⟨rfl, rfl, rfl, rfl, rfl, rfl⟩
    dsimp only
    split
    · split
      · exact hmarked.trans (.of_settled (State.endAccept_settled _))
      · exact hmarked
    · exact hmarked
  · exact .refl s

end

/-- The commands that are start-up, reset, the tick or a zone pass. -/
def movesBase : Instr → Bool
  | .reset => true
  | .releaseOfReset _ => true
  | .configReadDone _ => true
  | .stationTimeTick => true
  | .zoneSamplePass _ => true
  | _ => false

/-- Every other command keeps the base of the station. -/
theorem State.Effect.keeps {s b u : State} {c : Instr} {e : Ending} (h : s.Effect c e b u) (hc : movesBase c = false) :
    s.Keeps u := by
  cases h with
  | idle => exact .refl s
  | reset => cases hc
  | releaseOfReset => cases hc
  | configReadDone => cases hc
  | zonesQuiet => cases hc
  | zonesChanged => cases hc
  | stationTimeTick => cases hc
  | testTimerExpiry | busTroubleTimerExpiry => exact ⟨by simp, by simp, by simp, by simp, by simp, by simp, by simp⟩
  | linesLost => exact (s.linesTimed_keeps _).trans (State.hangUp_keepsBase _ _)
  | @linesChanged volts =>
    exact .next ((s.linesTimed_keeps volts).trans (watchLine_keeps _ s)) (by simp)
  | transmitError => exact .trans (.after (State.afterError_keeps _ _ _) (by simp)) (State.enterBusOff_keeps _ s)
  | stuckEntry =>
    dsimp only
    split
    · exact .of_same (by simp)
    · exact .after (State.enterSolo_keeps _) (by simp)
  | stuckExit =>
    dsimp only
    split
    · exact .of_same (by simp)
    · exact State.Keeps.after (State.leaveSolo_keeps _) (by simp)
  | busOffRecovery => exact State.Keeps.after (State.leaveSolo_keeps _) (by simp)
  | clash => exact ⟨rfl, rfl, rfl, rfl, rfl, id, fun _ => rfl⟩
  | claimReceived => exact (s.heard_keeps _ _).trans (State.takeClaim_keeps _ _)
  | objectReceived => exact (s.heard_keeps _ _).trans (State.takeObject_keeps _ _)
  | releaseReceived => exact (s.heard_keeps _ _).trans (State.takeRelease_keeps _ _)
  | offerReceived => exact (s.heard_keeps _ _).trans (State.takeOffer_keeps _ _)
  | acceptReceived => exact (s.heard_keeps _ _).trans (State.takeAccept_keeps _ _)
  | carryReceived => exact (s.heard_keeps _ _).trans (State.takeCarry_keeps _ _)
  | outcomeReceived => exact (s.heard_keeps _ _).trans (State.takeOutcome_keeps _ _)
  | stateReceived => exact (s.heard_keeps _ _).trans (State.takeState_keeps _ _)
  | sent => exact State.Keeps.after (State.concludeSending_keeps _ _) (by simp)
  | ownGuardPasses => dsimp only; split <;> exact .of_same (by simp)
  | offerWindowExpiry => exact s.offerUnanswered_keeps _
  | clockWarm | clockSteady => exact s.clockReady_keeps
  | clockFailInClaim => exact s.clockFailed_keeps.trans (State.abandonForClock_keeps _ _)
  | clockFail => exact s.clockFailed_keeps
  | dialToneJudged => exact (s.lineProved_keeps.trans (State.enterDial_keeps _)).next (by simp)
  | dialToneWaitExpiry | handshakeWaitExpiry | kissoffFailed | lineLostTimerExpiry => exact s.hangUp_keepsBase _
  | digitEnd => exact s.dialFrom_keeps _
  | toneClassChange | toneGapLimit => exact s.hear_keeps _ _
  | busyCadence => exact s.cadenceReported_keeps.trans (State.hangUp_keepsBase _ _)
  | busyCadenceUnread => exact s.cadenceReported_keeps
  | linesQuiet => exact s.linesSampled_keeps _
  | unread => exact s.heard_keeps _ _
  | kissoffJudged => exact (s.deliverInHand_keeps _).trans (State.afterDelivery_keeps _)
  | _ => exact .of_same (by simp)

/-! ### Start-up -/

theorem loadImage_pending (image : BitVec 416) (s : State) : (loadImage image s).pending = s.pending := by
  unfold loadImage
  split <;> rfl

theorem beginSampling_pending (s : State) : (beginSampling s).pending = s.pending := by
  unfold beginSampling
  split
  · rfl
  · simp

theorem State.Effect.pending {s b u : State} {c : Instr} {e : Ending} (h : s.Effect c e b u) : u.pending = s.pending := by
  by_cases hc : movesBase c = false
  · exact (h.keeps hc).pending
  · cases h with
    | configReadDone =>
      rw [beginSampling_pending]
      exact loadImage_pending _ s
    | zonesChanged => simp
    | sent hsent => cases c <;> first | exact absurd rfl hc | cases hsent
    | _ => first | rfl | exact absurd rfl hc

/-- Settles O2: each command has one of the effects of `State.Effect`, and none of them touches the commands that wait. -/
theorem everyCommandAnswers : Obligations.EveryCommandAnswers := by
  unfold Obligations.EveryCommandAnswers
  intro c s
  obtain ⟨e, b, u, hx, hu⟩ := exec_does c s
  exact ⟨_, hx, (e.close_settled b u).pending.trans hu.pending⟩

/-- Settles O1. -/
theorem stepRunsFrontCommand : Obligations.StepRunsFrontCommand := by
  unfold Obligations.StepRunsFrontCommand
  intro c rest s
  rfl

end Sys2Proof.Machine

/-! ### Latches, station time, settings, TEC and F: what moves them -/

namespace Sys2Proof.Machine

open Host

theorem loadImage_configFault {image : BitVec 416} {s : State} (h : s.loader.configFault = true) :
    (loadImage image s).loader.configFault = true := by
  unfold loadImage
  split
  · exact h
  · rfl

theorem loadImage_verified {image : BitVec 416} {s : State} (h : s.loader.verified = true) :
    (loadImage image s).loader.verified = true := by
  unfold loadImage
  split
  · rfl
  · exact h

@[simp] theorem loadImage_latch (image : BitVec 416) (s : State) :
    (loadImage image s).clock.latch = s.clock.latch := by
  unfold loadImage
  split <;> rfl

@[simp] theorem loadImage_ind (image : BitVec 416) (s : State) : (loadImage image s).ind = s.ind := by
  unfold loadImage
  split <;> rfl

@[simp] theorem loadImage_time (image : BitVec 416) (s : State) : (loadImage image s).time = s.time := by
  unfold loadImage
  split <;> rfl

@[simp] theorem joinBus_loader (s : State) : (joinBus s).loader = s.loader := rfl

@[simp] theorem joinBus_clock (s : State) : (joinBus s).clock = s.clock := rfl

@[simp] theorem joinBus_clash (s : State) : (joinBus s).ind.addressClash = s.ind.addressClash := by
  unfold joinBus
  dsimp only
  split <;> rfl

/-- Step 7 of start-up writes the queue and the Zone Input Unit alone (R170). -/
theorem beginSampling_keeps (s : State) :
    beginSampling s = { s with queue := (beginSampling s).queue, zone := (beginSampling s).zone } := by
  unfold beginSampling
  split
  · rfl
  · simp only [State.raise]
    split <;> rfl

@[simp] theorem beginSampling_loader (s : State) : (beginSampling s).loader = s.loader := by rw [beginSampling_keeps]

@[simp] theorem beginSampling_clock (s : State) : (beginSampling s).clock = s.clock := by rw [beginSampling_keeps]

@[simp] theorem beginSampling_ind (s : State) : (beginSampling s).ind = s.ind := by rw [beginSampling_keeps]

@[simp] theorem beginSampling_time (s : State) : (beginSampling s).time = s.time := by rw [beginSampling_keeps]

@[simp] theorem beginSampling_rbc (s : State) : (beginSampling s).rbc = s.rbc := by rw [beginSampling_keeps]

@[simp] theorem beginSampling_view (s : State) : (beginSampling s).view = s.view := by rw [beginSampling_keeps]

/-- The four latches of the station: each set one stays set (R163, R171, R172, R174). -/
structure State.LatchesHold (s t : State) : Prop where
  latch : s.clock.latch = true → t.clock.latch = true
  clash : s.ind.addressClash = true → t.ind.addressClash = true
  fault : s.loader.configFault = true → s.loader.inReset = false → t.loader.configFault = true
  verified : s.loader.verified = true → t.loader.verified = true

theorem State.Keeps.latchesHold {s t : State} (h : s.Keeps t) : s.LatchesHold t :=
  ⟨h.latch, h.clash, fun hf _ => h.loader ▸ hf, fun hv => h.loader ▸ hv⟩

/-- The command's own effect ends no latch, but at reset. -/
theorem State.Effect.latchesHold {s b u : State} {c : Instr} {e : Ending} (h : s.Effect c e b u) (hc : c ≠ .reset) :
    s.LatchesHold u := by
  by_cases hm : movesBase c = false
  · exact (h.keeps hm).latchesHold
  cases h with
  | reset => exact absurd rfl hc
  | releaseOfReset hr => exact ⟨id, id, fun _ hn => absurd (hr.symm.trans hn) (by decide), id⟩
  | configReadDone => exact ⟨by simp, by simp, fun hf _ => by simpa using loadImage_configFault hf,
      fun hv => by simpa using loadImage_verified hv⟩
  | zonesChanged => exact ⟨by simp, by simp, by simp +contextual, by simp⟩
  | sent hsent => cases c <;> first | exact absurd rfl hm | cases hsent
  | idle | zonesQuiet | stationTimeTick | clash | unread => first
    | exact ⟨id, id, fun hf _ => hf, id⟩
    | exact ⟨id, fun _ => rfl, fun hf _ => hf, id⟩
  | _ => exact absurd rfl hm

/-- Settles O9: no effect but reset's ends a latch, and neither does the end of the step. -/
theorem latchesHoldUntilReset : Obligations.LatchesHoldUntilReset := by
  unfold Obligations.LatchesHoldUntilReset
  intro c s t hc h
  obtain ⟨e, b, u, rfl, hu⟩ := exec_effect h
  have hl := hu.latchesHold hc
  have hs := e.close_settled b u
  exact ⟨fun h => hs.latch.trans (hl.latch h), fun h => hs.clash.trans (hl.clash h),
    fun h hr => by rw [hs.loader]; exact hl.fault h hr, fun h => by rw [hs.loader]; exact hl.verified h⟩

end Sys2Proof.Machine

/-! ### The bus controller: its bounds, and what it has to send

`State.KeepsBus` gathers what every shared operation leaves of the bus controller and of the Indication Unit: the wire
conditions, no frame newly in a slot, no STATE newly owed. -/

namespace Sys2Proof.Machine

open Host

/-- The wire conditions stay; no slot is filled; no STATE becomes owed; the last contents and their flag stay. -/
structure State.KeepsBus (s t : State) : Prop where
  wire : { t.rbc with slots := s.rbc.slots, owed := s.rbc.owed } = s.rbc
  slots : (t.rbc.slots.map Slot.marker).Sublist (s.rbc.slots.map Slot.marker)
  states : t.rbc.owed.count .state ≤ s.rbc.owed.count .state
  last : t.ind.last = s.ind.last
  owed : t.ind.stateOwed = s.ind.stateOwed

/-- A controller that differs from another in its slots and owed markers alone. -/
theorem Rbc.wire_trans {a b c : Rbc} (h : { b with slots := a.slots, owed := a.owed } = a)
    (g : { c with slots := b.slots, owed := b.owed } = b) : { c with slots := a.slots, owed := a.owed } = a := by
  rcases a with ⟨⟩; rcases b with ⟨⟩; rcases c with ⟨⟩
  simp_all

namespace State.KeepsBus

variable {s t u : State}

theorem refl (s : State) : s.KeepsBus s := ⟨rfl, .refl _, Nat.le_refl _, rfl, rfl⟩

theorem trans (h : s.KeepsBus t) (g : t.KeepsBus u) : s.KeepsBus u where
  wire := Rbc.wire_trans h.wire g.wire
  slots := g.slots.trans h.slots
  states := g.states.trans h.states
  last := g.last.trans h.last
  owed := g.owed.trans h.owed

/-- An operation that leaves the controller and the Indication Unit. -/
theorem of_same (h : t.rbc = s.rbc ∧ t.ind = s.ind) : s.KeepsBus t := by
  obtain ⟨hr, hi⟩ := h
  refine ⟨?_, ?_, ?_, ?_, ?_⟩ <;> simp only [hr, hi]
  · exact .refl _
  · exact Nat.le_refl _

theorem after (g : t.KeepsBus u) (h : t.rbc = s.rbc ∧ t.ind = s.ind) : s.KeepsBus u := (of_same h).trans g

theorem next (g : s.KeepsBus t) (h : u.rbc = t.rbc ∧ u.ind = t.ind) : s.KeepsBus u := g.trans (of_same h)

/-- A marker that is no STATE owed. -/
theorem owe {m : Marker} (hm : m ≠ .state) (hr : t.rbc = s.rbc.owe m) (hi : t.ind = s.ind) : s.KeepsBus t := by
  refine ⟨?_, ?_, ?_, ?_, ?_⟩ <;> simp only [hr, hi, Rbc.owe]
  · exact .refl _
  · simp [List.count_append, hm]

end State.KeepsBus

section
variable (s : State)

theorem slots_abort_markers (p : Marker → Bool) (l : List Slot) :
    (((l.filter fun t => !(p t.marker && !t.sending)).map fun t => if p t.marker then { t with abort := true } else t).map
      Slot.marker).Sublist (l.map Slot.marker) := by
  rw [List.map_map]
  have : (Slot.marker ∘ fun t => if p t.marker then { t with abort := true } else t) = Slot.marker := by
    funext t
    simp only [Function.comp]
    split <;> rfl
  rw [this]
  exact List.filter_sublist.map _

theorem State.cancel_keepsBus (p : Marker → Bool) : s.KeepsBus (s.cancel p) where
  wire := rfl
  slots := slots_abort_markers p s.rbc.slots
  states := List.filter_sublist.count_le _
  last := rfl
  owed := rfl

theorem State.endAttempt_keepsBus (unacked : Nat) : s.KeepsBus (s.endAttempt unacked) := by
  unfold State.endAttempt
  split
  · exact .refl s
  · split
    · exact ⟨rfl, List.filter_sublist.map _, Nat.le_refl _, rfl, rfl⟩
    · refine ⟨rfl, ?_, Nat.le_refl _, rfl, rfl⟩
      simp only [Rbc.keepSending, List.map_map]
      have : ∀ x ∈ s.rbc.slots, (Slot.marker ∘ fun x => if x.sending then { x with sending := false, unacked := unacked }
          else x) x = x.marker := fun x _ => by
        simp only [Function.comp]
        split <;> rfl
      rw [List.map_congr_left this]

theorem State.oweRelease_keepsBus (k : LineId) (reason : Reason) : s.KeepsBus (s.oweRelease k reason) where
  wire := by
    unfold State.oweRelease
    dsimp only
    split <;> rfl
  slots := by rw [slots_oweRelease]
  states := (owed_oweRelease k reason s .state rfl).le
  last := rfl
  owed := rfl

theorem State.oweObject_keepsBus (k : LineId) : s.KeepsBus (s.oweObject k) := by
  unfold State.oweObject
  split
  · exact .refl s
  · exact .owe (m := .object k) (by simp) rfl rfl

theorem State.placeOn_keepsBus (k : LineId) (tier : Tier) (r : Record) : s.KeepsBus (s.placeOn k tier r) := by
  cases h : s.solo with
  | true => exact .of_same ⟨by simp [State.placeOn, h], by simp⟩
  | false =>
    exact State.KeepsBus.owe (m := .claim k (r.key s.time s.address) (decide (tier = .office))) (by simp)
      (by simp [State.placeOn, h]) rfl

theorem State.clearOwnFields_keepsBus (k : LineId) : s.KeepsBus (s.clearOwnFields k) :=
  .after (State.cancel_keepsBus _ _) (by simp)

theorem State.dropClaim_keepsBus (k : LineId) : s.KeepsBus (s.dropClaim k) :=
  .trans (.after (State.clearOwnFields_keepsBus _ k) (by simp)) (State.cancel_keepsBus _ _)

theorem State.rechoose_keepsBus : s.KeepsBus s.rechoose := by
  unfold State.rechoose
  split
  · exact .of_same (by simp)
  · next r _ =>
    split
    · split
      · next k tier _ => exact .next (s.placeOn_keepsBus k tier r) (by simp)
      · exact .of_same (by simp)
    · exact .of_same (by simp)

theorem State.abandonInClaim_keepsBus (k : LineId) : s.KeepsBus (s.abandonInClaim k) :=
  (s.dropClaim_keepsBus k).trans (State.rechoose_keepsBus _)

theorem State.account_keepsBus (k : LineId) (o : CallOutcome) : s.KeepsBus (s.account k o).1 := by
  rw [State.account_keeps]
  exact .of_same (by simp)

theorem State.hangUp_keepsBus (o : CallOutcome) : s.KeepsBus (s.hangUp o) := by
  unfold State.hangUp
  split
  · exact .refl s
  · next k _ =>
    have hacc : s.KeepsBus ((s.releaseLine o).account k o).1 := .after (State.account_keepsBus _ k o) (by simp)
    dsimp only
    split
    · exact .next hacc (by simp)
    · refine .next (hacc.trans (.after (State.oweRelease_keepsBus
        { ((s.releaseLine o).account k o).1 with
          queue := ((s.releaseLine o).account k o).1.queue.giveBackAll s.time } k o.reason) (by simp))) (by simp)

theorem State.takeYield_keepsBus : s.KeepsBus s.takeYield := by
  unfold State.takeYield
  split
  case h_5 => split; exacts [s.hangUp_keepsBus _, .refl s]
  all_goals first | exact s.hangUp_keepsBus _ | exact .refl s

theorem State.setYield_keepsBus : s.KeepsBus s.setYield := by
  unfold State.setYield
  split
  · exact .refl s
  · exact .after (State.takeYield_keepsBus _) (by simp)

theorem State.claimIntoSolo_keepsBus : s.KeepsBus s.claimIntoSolo := by
  unfold State.claimIntoSolo
  split
  · split
    · split
      · next k _ _ _ _ =>
        exact .next (.after (s := s) (State.cancel_keepsBus
          { s with view := s.view.update k fun e => { e with ownGuardDone := true } } (Marker.claims k)) (by simp)) (by simp)
      · exact s.abandonInClaim_keepsBus _
    · split
      · dsimp only; split <;> exact .of_same (by simp)
      · exact .refl s
  · exact .refl s

theorem State.enterSolo_keepsBus : s.KeepsBus s.enterSolo := .after (State.claimIntoSolo_keepsBus _) (by simp)

theorem State.dropReleases_keepsBus : s.KeepsBus s.dropReleases :=
  ⟨rfl, List.filter_sublist.map _, List.filter_sublist.count_le _, rfl, rfl⟩

theorem State.releaseEnded_keepsBus (k : LineId) : s.KeepsBus (s.releaseEnded k) := by
  refine ⟨rfl, .refl _, le_of_eq ?_, rfl, rfl⟩
  simp only [State.releaseEnded, List.count_append]
  induction s.rbc.owed with
  | nil => rfl
  | cons m rest ih =>
    cases h : m.releases k <;> simp only [List.filter_cons, h, Bool.not_true, Bool.not_false, if_true, List.count_cons,
      Bool.false_eq_true, if_false] <;> omega

theorem State.frameEnded_keepsBus (t : Slot) : s.KeepsBus (s.frameEnded t) := by
  unfold State.frameEnded
  split
  · unfold State.claimEnded; split <;> exact .of_same (by simp)
  · exact .refl s
  · exact s.releaseEnded_keepsBus _
  · unfold State.offerEnded; split <;> exact .of_same (by simp)
  · exact .refl s
  · unfold State.carryEnded
    split
    · split <;> exact .of_same (by simp)
    · exact .refl s
  · exact .refl s
  · exact ⟨rfl, .refl _, Nat.le_refl _, rfl, rfl⟩

theorem State.concludeSending_keepsBus (t : Slot) : s.KeepsBus (s.concludeSending t) :=
  State.KeepsBus.trans (t := { s with rbc := s.rbc.dropSending, carry := s.carry.slotEmptied t.marker })
    ⟨rfl, List.filter_sublist.map _, Nat.le_refl _, rfl, rfl⟩ (State.frameEnded_keepsBus _ t)

theorem State.afterError_keepsBus (kind : ErrorKind) (t : Slot) : s.KeepsBus (s.afterError kind t) := by
  unfold State.afterError
  split
  · split
    · exact s.concludeSending_keepsBus t
    · exact s.endAttempt_keepsBus _
  · exact s.endAttempt_keepsBus _

theorem State.countAttempt_keepsBus (r : Record) (also : Record → Record) :
    s.KeepsBus (s.countAttempt r also).1 := by
  unfold State.countAttempt
  dsimp only
  rw [State.checkAttempts_keeps]
  exact .of_same (by simp)

theorem State.offerUnanswered_keepsBus (o : Offer) : s.KeepsBus (s.offerUnanswered o) := by
  unfold State.offerUnanswered
  dsimp only
  split
  · exact .of_same (by simp)
  · next r _ =>
    have hcounted : ∀ a : State, a.KeepsBus (a.countUnanswered r).1 := fun a => by
      unfold State.countUnanswered
      split
      · exact a.countAttempt_keepsBus r _
      · exact .of_same (by simp)
    exact .next (.after (s := s) (hcounted { s with carry := { s.carry with offer := none } }) (by simp)) (by simp)

theorem State.abandonForClock_keepsBus (k : LineId) : s.KeepsBus (s.abandonForClock k) := by
  unfold State.abandonForClock
  split
  · exact s.abandonInClaim_keepsBus k
  · exact (s.abandonInClaim_keepsBus k).trans (State.oweRelease_keepsBus _ _ _)

theorem State.dialFrom_keepsBus (digits : List DialDigit) : s.KeepsBus (s.dialFrom digits) := by
  unfold State.dialFrom
  split <;> exact .of_same (by simp)

theorem State.lineProved_keepsBus : s.KeepsBus s.lineProved := by
  unfold State.lineProved
  split <;> exact .of_same (by simp)

theorem State.hear_keepsBus (next : ToneClass) (ms : Nat) : s.KeepsBus (s.hear next ms) := by
  unfold State.hear
  split <;> exact .of_same (by simp)

theorem State.afterDelivery_keepsBus : s.KeepsBus s.afterDelivery := by
  unfold State.afterDelivery
  split
  · exact s.hangUp_keepsBus _
  · split
    · split
      · exact .of_same ⟨rfl, rfl⟩
      · exact s.hangUp_keepsBus _
    · exact s.hangUp_keepsBus _

theorem State.deliverInHand_keepsBus (r : Record) : s.KeepsBus (s.deliverInHand r) :=
  .of_same ⟨(State.deliver_rbc s r), (State.deliver_ind s r)⟩

theorem watchLine_keepsBus (before : State) : s.KeepsBus (watchLine before s) := by
  unfold watchLine
  split
  · exact .of_same (by simp)
  · split <;> exact .of_same (by simp)

theorem State.endOffer_keepsBus : s.KeepsBus s.endOffer := by
  unfold State.endOffer
  split
  · exact .refl s
  · dsimp only
    split <;> first | exact .after (State.cancel_keepsBus _ _) (by simp) | exact .of_same (by simp)

theorem State.endAccept_keepsBus : s.KeepsBus s.endAccept := by
  unfold State.endAccept
  split
  · exact .refl s
  · exact .after (State.cancel_keepsBus _ _) (by simp)

theorem State.dropBid_keepsBus (origin : Nat) (seq : Byte) : s.KeepsBus (s.dropBid origin seq) := by
  unfold State.dropBid
  split
  · exact s.endAccept_keepsBus
  · exact .refl s

theorem State.takeClaim_keepsBus (f : ClaimFields) : s.KeepsBus (s.takeClaim f) := by
  unfold State.takeClaim
  split
  · exact .refl s
  · split
    · split
      · exact (s.dropClaim_keepsBus _).trans (.after (State.rechoose_keepsBus (State.recordClaim f _)) ⟨rfl, rfl⟩)
      · unfold State.answerClaim
        split
        · exact .after (State.setYield_keepsBus (s.recordClaim f)) ⟨rfl, rfl⟩
        · exact s.oweObject_keepsBus _
    · exact .of_same ⟨rfl, rfl⟩

theorem State.takeObject_keepsBus (f : ClaimFields) : s.KeepsBus (s.takeObject f) := by
  unfold State.takeObject
  split
  · exact .refl s
  · dsimp only
    split
    · refine .after (t := { s with view := s.view.update f.line (Entry.observeObject f.addr f.key) }) ?_ (by simp)
      unfold State.takeObjection
      split <;> first
        | exact State.abandonInClaim_keepsBus _ _
        | exact State.hangUp_keepsBus _ _
        | exact .refl _
    · exact .of_same (by simp)

theorem State.takeRelease_keepsBus (f : ReleaseFields) : s.KeepsBus (s.takeRelease f) := by
  unfold State.takeRelease
  split
  · exact .refl s
  · split <;> exact .of_same (by simp)

theorem State.takeOffer_keepsBus (f : OfferFields) : s.KeepsBus (s.takeOffer f) := by
  unfold State.takeOffer
  split
  · split
    · next score _ => exact .owe (m := .accept f.origin f.seq (acceptValue score s.address)) (by simp) rfl rfl
    · exact .refl s
  · exact .refl s

theorem State.takeAccept_keepsBus (f : AcceptFields) : s.KeepsBus (s.takeAccept f) := by
  unfold State.takeAccept
  split
  · split
    · unfold State.acceptOffer
      split
      · next o _ => exact .owe (m := .carry o.seq f.sender) (by simp) rfl rfl
      · exact .refl s
    · exact .refl s
  · exact s.dropBid_keepsBus _ _

theorem State.takeCarry_keepsBus (f : CarryFields) : s.KeepsBus (s.takeCarry f) := by
  unfold State.takeCarry
  dsimp only
  split
  · refine (s.dropBid_keepsBus f.origin f.seq).trans ?_
    unfold State.takeInCarry
    split
    · exact .refl _
    · split <;> exact .of_same (by simp)
  · exact s.dropBid_keepsBus _ _

theorem State.takeOutcome_keepsBus (f : OutcomeFields) : s.KeepsBus (s.takeOutcome f) := by
  unfold State.takeOutcome
  split
  · split
    · split
      · unfold State.outcomeDelivered
        split
        case h_4 => exact .next s.endOffer_keepsBus (by simp)
        all_goals exact .of_same (by simp)
      · unfold State.outcomeReturned
        split
        · split <;> exact .of_same (by simp)
        all_goals exact .refl s
    · exact .refl s
  · exact .refl s

theorem State.takeState_keepsBus (f : StateFields) : s.KeepsBus (s.takeState f) := by
  unfold State.takeState
  split
  · have hmarked : s.KeepsBus (State.dropOutcomes f.sender { s with queue := { s.queue with
        records := s.queue.records.map (orphan f.sender) } }) := .after (State.cancel_keepsBus _ _) (by simp)
    dsimp only
    split
    · split
      · exact hmarked.trans (State.endAccept_keepsBus _)
      · exact hmarked
    · exact hmarked
  · exact .refl s

end

/-! ### Bounds of the controller -/

theorem Rbc.Sound.of_wire {a b : Rbc} (h : a.Sound) (hw : { b with slots := a.slots, owed := a.owed } = a)
    (hs : b.slots.length ≤ 3) : b.Sound := by
  have h1 := congrArg Rbc.txErrors hw
  have h2 := congrArg Rbc.rxErrors hw
  have h3 := congrArg Rbc.recessiveRun hw
  have h4 := congrArg Rbc.dominantRun hw
  have h5 := congrArg Rbc.recovery hw
  dsimp only at h1 h2 h3 h4 h5
  exact ⟨h1 ▸ h.tx, h2 ▸ h.rx, hs, h3 ▸ h4 ▸ h.runs, h3 ▸ h5 ▸ h.recovery⟩

theorem State.KeepsBus.sound {s t : State} (h : s.KeepsBus t) (hs : s.rbc.Sound) : t.rbc.Sound :=
  hs.of_wire h.wire (by simpa using h.slots.length_le.trans (by simpa using hs.slots))

theorem State.KeepsBus.txErrors {s t : State} (h : s.KeepsBus t) : t.rbc.txErrors = s.rbc.txErrors := by
  have := congrArg Rbc.txErrors h.wire
  exact this

/-- The slots stay at most three as they are loaded. -/
theorem State.loadOne_slots {s : State} (h : s.rbc.slots.length ≤ 3) : s.loadOne.rbc.slots.length ≤ 3 := by
  unfold State.loadOne
  split
  · split
    · exact h
    · simp only [State.putInSlot, List.length_append, List.length_singleton]
      omega
  · exact h

theorem State.oweState_slots (s : State) : s.oweState.rbc.slots = s.rbc.slots := by
  unfold State.oweState
  split
  · split <;> rfl
  · rfl

theorem State.checkAccept_keepsBus (before s : State) : s.KeepsBus (State.checkAccept before s) := by
  unfold State.checkAccept
  split
  · exact s.endAccept_keepsBus
  · exact .refl s

theorem State.startCall_keepsBus (r : Record) (k : LineId) (tier : Tier) (s : State) :
    s.KeepsBus (s.startCall r k tier) := by
  unfold State.startCall
  exact .next (.after (s := s) (State.placeOn_keepsBus { s with
    queue := s.queue.modify r.order fun x => { x with state := .inCall }
    call := { s.call with state := .claim, lead := some r.order, inHand := some r.order, batch := 0, sends := 0 }
    clock := { s.clock with releaseTimer := false } } k tier r) (by simp)) (by simp)

theorem State.choose_keepsBus (s : State) : s.KeepsBus s.choose := by
  unfold State.choose
  split
  · split
    · exact .refl s
    · split
      · exact State.startCall_keepsBus _ _ _ s
      · exact .refl s
  · exact .refl s

theorem State.makeOffer_keepsBus (s : State) : s.KeepsBus s.makeOffer := by
  unfold State.makeOffer
  split
  · exact .refl s
  · next r _ =>
    split
    · exact .refl s
    · next o _ => exact State.KeepsBus.owe (m := .offer o.seq (r.key s.time s.address)) (by simp) rfl rfl

theorem State.chooseAndOffer_keepsBus (s : State) : s.KeepsBus s.chooseAndOffer := by
  unfold State.chooseAndOffer
  split
  · have hfree : s.KeepsBus { s with free := s.free + 1 } := .of_same ⟨rfl, rfl⟩
    dsimp only
    split
    · exact (hfree.trans (State.makeOffer_keepsBus _)).trans (State.choose_keepsBus _)
    · exact (hfree.trans (State.choose_keepsBus _)).trans (State.makeOffer_keepsBus _)
  · exact (State.choose_keepsBus s).trans (State.makeOffer_keepsBus _)

/-- What stands before the STATE is owed and the slots are loaded. -/
def Ending.afresh : Ending → State → State → State
  | .none, _, made => made
  | .frames, _, made => made
  | .choice, before, made => (State.checkAccept before made).choose
  | .full, before, made => (State.checkAccept before made).chooseAndOffer

theorem Ending.afresh_keepsBus (e : Ending) (b u : State) : u.KeepsBus (e.afresh b u) := by
  cases e with
  | none => exact .refl u
  | frames => exact .refl u
  | choice => exact (State.checkAccept_keepsBus b u).trans (State.choose_keepsBus _)
  | full => exact (State.checkAccept_keepsBus b u).trans (State.chooseAndOffer_keepsBus _)

/-- The end of a step: none, or the reported items noted, the STATE owed and the slots loaded. -/
theorem Ending.close_eq (e : Ending) (b u : State) :
    e.close b u = u ∨ e.close b u = ((State.noteReported b (e.afresh b u)).oweState).loadSlots := by
  cases e with
  | none => exact .inl rfl
  | frames => exact .inr rfl
  | choice => exact .inr rfl
  | full => exact .inr rfl

theorem Ending.close_slots (e : Ending) (b u : State) (h : u.rbc.slots.length ≤ 3) :
    (e.close b u).rbc.slots.length ≤ 3 := by
  rcases e.close_eq b u with he | he <;> rw [he]
  · exact h
  · refine State.loadOne_slots (State.loadOne_slots (State.loadOne_slots ?_))
    rw [State.oweState_slots, State.noteReported_rbc]
    simpa using (e.afresh_keepsBus b u).slots.length_le.trans (by simpa using h)

theorem Ending.close_sound (e : Ending) (b u : State) (h : u.rbc.Sound) : (e.close b u).rbc.Sound :=
  h.of_wire (e.close_settled b u).wire (e.close_slots b u h.slots)

end Sys2Proof.Machine

/-! ### The bus controller through every command -/

namespace Sys2Proof.Machine

open Host

/-- The commands that are met on the wire, with reset and the end of start-up. -/
def movesWire : Instr → Bool
  | .reset => true
  | .configReadDone _ => true
  | .joinPeriodEnd => true
  | .busIdle _ => true
  | .frameStart _ => true
  | .startOfFrameReceived => true
  | .arbitrationLost _ => true
  | .receiveError _ _ _ => true
  | .transmitError _ _ _ => true
  | .passiveSuspendEnd => true
  | .stuckEntry => true
  | .stuckExit => true
  | .busOffRecovery _ => true
  | c => isReceipt c || (sentType c).isSome

theorem movesWire_sent {c : Instr} {type : FrameType} (h : sentType c = some type) : movesWire c = true := by
  cases c <;> first | rfl | cases h

theorem movesWire_receipt {c : Instr} (h : isReceipt c = true) : movesWire c = true := by
  cases c <;> first | rfl | cases h

section
variable {s b u : State} {c : Instr} {e : Ending}

/-- The effect of any other command leaves the controller, but for what is owed and withdrawn. -/
theorem State.Effect.keepsBus (h : s.Effect c e b u) (hc : movesWire c = false) : s.KeepsBus u := by
  cases h with
  | reset | configReadDone | joinPeriodEnd | busIdle | frameStart | receiveError | transmitError | passiveSuspendEnd
  | stuckEntry | stuckExit | busOffRecovery | startOfFrameReceived | arbitrationLost | claimReceived | objectReceived
  | releaseReceived | offerReceived | acceptReceived | carryReceived | outcomeReceived | stateReceived => cases hc
  | idle | notBeforePasses | nextOfferTimePasses => exact .refl s
  | linesLost => exact .after (t := s.linesTimed _) (State.hangUp_keepsBus _ _) ⟨rfl, rfl⟩
  | @linesChanged volts => exact .next (.after (t := s.linesTimed volts) (watchLine_keepsBus _ s) ⟨rfl, rfl⟩) (by simp)
  | sent hsent => exact absurd hc (by simp [movesWire_sent hsent])
  | clash hr | unread hr => exact absurd hc (by simp [movesWire_receipt hr])
  | ownGuardPasses => dsimp only; split <;> exact .of_same (by simp)
  | linesQuiet => exact .of_same ⟨rfl, rfl⟩
  | offerWindowExpiry => exact s.offerUnanswered_keepsBus _
  | acceptPendingTimeout => exact s.endAccept_keepsBus
  | stateSpacingExpiry => exact ⟨rfl, .refl _, Nat.le_refl _, rfl, rfl⟩
  | clockWarm | clockSteady => exact .of_same ⟨by simp [State.clockReady], by simp [State.clockReady]⟩
  | clockFailInClaim => exact .after (State.abandonForClock_keepsBus _ _) ⟨rfl, rfl⟩
  | clockFail => exact .of_same ⟨rfl, rfl⟩
  | dialToneJudged => 
    exact .next (t := s.lineProved.enterDial)
      (s.lineProved_keepsBus.trans (.after (State.dialFrom_keepsBus _ _) (by simp))) (by simp)
  | dialToneWaitExpiry | handshakeWaitExpiry | kissoffFailed | lineLostTimerExpiry => exact s.hangUp_keepsBus _
  | digitEnd => exact s.dialFrom_keepsBus _
  | toneClassChange | toneGapLimit => exact s.hear_keepsBus _ _
  | busyCadence => exact .after (State.hangUp_keepsBus _ _) ⟨rfl, rfl⟩
  | busyCadenceUnread => exact .of_same ⟨rfl, rfl⟩
  | kissoffJudged => exact (s.deliverInHand_keepsBus _).trans (State.afterDelivery_keepsBus _)
  | @hangUpHoldEnd k => exact .next (s.clearOwnFields_keepsBus k) (by simp)
  | _ => exact .of_same (by simp)

end

/-! ### Bounds (R75, R86, R87, R89) -/

namespace Rbc.Sound

variable {b : Rbc}

theorem reset : Rbc.reset.Sound := ⟨by decide, by decide, by decide, by decide, by decide⟩

theorem startSending (h : b.Sound) (t : Slot) : (b.startSending t).Sound where
  tx := h.tx
  rx := h.rx
  slots := by
    have : ∀ (f : Slot → Slot) l, (Rbc.changeFirst f t l).length = l.length := fun f l => by
      induction l with
      | nil => rfl
      | cons x rest ih => simp only [Rbc.changeFirst]; split <;> simp [ih]
    exact (this _ _).trans_le h.slots
  runs := h.runs
  recovery := h.recovery

theorem signalError (h : b.Sound) (active : Bool) (echo : BitVec 8) : (b.signalError active echo).Sound := by
  unfold Rbc.signalError
  split
  · exact h.readBits _
  · exact h

theorem raiseTx (h : b.Sound) : b.raiseTx.Sound := ⟨Nat.min_le_left _ _, h.rx, h.slots, h.runs, h.recovery⟩

theorem countFailedAttempt (h : b.Sound) (kind : ErrorKind) : (b.countFailedAttempt kind).Sound := by
  unfold Rbc.countFailedAttempt Rbc.raiseTxForAck
  split
  · split
    · exact h.raiseTx
    · exact h
  · exact h.raiseTx

theorem lowerTx (h : b.Sound) : b.lowerTx.Sound := ⟨(Nat.sub_le _ _).trans h.tx, h.rx, h.slots, h.runs, h.recovery⟩

theorem raiseRx (h : b.Sound) : b.raiseRx.Sound := by
  unfold Rbc.raiseRx
  split
  · exact h
  · exact ⟨h.tx, Nat.min_le_left _ _, h.slots, h.runs, h.recovery⟩

theorem lowerRx (h : b.Sound) : b.lowerRx.Sound := by
  unfold Rbc.lowerRx
  split
  · exact h
  · exact ⟨h.tx, (Nat.sub_le _ _).trans h.rx, h.slots, h.runs, h.recovery⟩

theorem readRecessiveAfterDominant (h : b.Sound) (n : Nat) : (b.readRecessiveAfterDominant n).Sound := by
  refine ⟨h.tx, h.rx, h.slots, .inr rfl, ?_⟩
  simp only [Rbc.readRecessiveAfterDominant]
  split <;> omega

theorem readRecessiveTo (h : b.Sound) {n : Nat} (hn : b.recessiveRun ≤ n) : (b.readRecessiveTo n).Sound := by
  refine ⟨h.tx, h.rx, h.slots, .inr rfl, ?_⟩
  have := h.recovery
  simp only [Rbc.readRecessiveTo]
  split <;> omega

theorem suspend (h : b.Sound) (x : Bool) : ({ b with suspend := x } : Rbc).Sound :=
  ⟨h.tx, h.rx, h.slots, h.runs, h.recovery⟩

theorem receiving (h : b.Sound) (x : Bool) : ({ b with receiving := x } : Rbc).Sound :=
  ⟨h.tx, h.rx, h.slots, h.runs, h.recovery⟩

theorem heard (h : b.Sound) (f : Frame) (acked : Bool) : (b.endReception f acked).Sound :=
  ((h.receiving false).readRecessiveAfterDominant _).lowerRx

end Rbc.Sound

theorem State.enterBusOff_sound {before s : State} (h : s.rbc.Sound) : (before.enterBusOff s).rbc.Sound := by
  unfold State.enterBusOff
  split
  · have hcleared : ({ s.rbc with recovery := 0 } : Rbc).Sound := ⟨h.tx, h.rx, h.slots, h.runs, Nat.zero_le _⟩
    have hdropped := (State.dropReleases_keepsBus { s with rbc := { s.rbc with recovery := 0 } }).sound hcleared
    dsimp only
    split
    · exact hdropped
    · exact (State.enterSolo_keepsBus _).sound hdropped
  · exact h

@[simp] theorem loadImage_rbc (image : BitVec 416) (s : State) : (loadImage image s).rbc = s.rbc := by
  unfold loadImage
  split <;> rfl

/-- The bounds of the controller through the effect of every command. -/
theorem State.Effect.rbc_sound {s b u : State} {c : Instr} {e : Ending} (h : s.Effect c e b u) (hs : s.rbc.Sound) :
    u.rbc.Sound := by
  by_cases hm : movesWire c = false
  · exact (h.keepsBus hm).sound hs
  have hbits := fun read => hs.readBits read
  cases h with
  | reset => exact .reset
  | configReadDone =>
    rw [beginSampling_rbc]
    simp only [joinBus, loadImage_rbc]
    exact ⟨hs.tx, hs.rx, hs.slots, hs.runs, hs.recovery⟩
  | joinPeriodEnd => exact ⟨hs.tx, hs.rx, hs.slots, hs.runs, hs.recovery⟩
  | busIdle => exact (hbits _).receiving _
  | frameStart => exact (hs.startSending _).readBits [_]
  | receiveError => exact (((hbits _).signalError _ _).raiseRx).receiving _
  | transmitError =>
    exact State.enterBusOff_sound ((State.afterError_keepsBus _ _ _).sound
      ((((hbits _).signalError _ _).countFailedAttempt _).suspend _))
  | passiveSuspendEnd => exact (hs.readRecessiveTo (Nat.le_max_right _ _)).suspend _
  | stuckEntry =>
    have hended := (s.endAttempt_keepsBus s.sendingUnacked).sound hs
    have hdropped := State.KeepsBus.sound (State.dropReleases_keepsBus { s.endAttempt s.sendingUnacked with
      rbc := { (s.endAttempt s.sendingUnacked).rbc with
        stuck := true, receiving := false, dominantRun := 64, recessiveRun := 0, recovery := 0 } })
        ⟨hended.tx, hended.rx, hended.slots, .inl rfl, Nat.zero_le _⟩
    dsimp only
    split
    · exact hdropped
    · exact (State.enterSolo_keepsBus _).sound hdropped
  | stuckExit =>
    have hfreed : ∀ n, n ≤ 11 →
        ({ s.rbc with stuck := false, recessiveRun := 11, dominantRun := 0, recovery := n } : Rbc).Sound :=
      fun _ hn => ⟨hs.tx, hs.rx, hs.slots, .inr rfl, hn⟩
    dsimp only
    split
    · exact hfreed _ (Nat.le_refl _)
    · rw [State.leaveSolo_rbc]
      exact hfreed _ (Nat.zero_le _)
  | @busOffRecovery read =>
    have := hbits read
    rw [State.leaveSolo_rbc]
    exact ⟨Nat.zero_le _, Nat.zero_le _, this.slots, this.runs, Nat.zero_le _⟩
  | startOfFrameReceived => exact ⟨hs.tx, hs.rx, hs.slots, .inl rfl, Nat.zero_le _⟩
  | arbitrationLost =>
    have hread := fun n read => ((s.endAttempt_keepsBus n).sound hs).readBits read
    exact ⟨(hread _ _).tx, (hread _ _).rx, (hread _ _).slots, (hread _ _).runs, (hread _ _).recovery⟩
  | clash | unread => exact hs.heard _ _
  | sent => exact (State.concludeSending_keepsBus _ _).sound (((hs.readRecessiveAfterDominant _).lowerTx).suspend _)
  | claimReceived => exact (State.takeClaim_keepsBus _ _).sound (hs.heard _ _)
  | objectReceived => exact (State.takeObject_keepsBus _ _).sound (hs.heard _ _)
  | releaseReceived => exact (State.takeRelease_keepsBus _ _).sound (hs.heard _ _)
  | offerReceived => exact (State.takeOffer_keepsBus _ _).sound (hs.heard _ _)
  | acceptReceived => exact (State.takeAccept_keepsBus _ _).sound (hs.heard _ _)
  | carryReceived => exact (State.takeCarry_keepsBus _ _).sound (hs.heard _ _)
  | outcomeReceived => exact (State.takeOutcome_keepsBus _ _).sound (hs.heard _ _)
  | stateReceived => exact (State.takeState_keepsBus _ _).sound (hs.heard _ _)
  | idle => exact hs
  | _ => exact absurd rfl hm

/-- A step runs one command, or none. -/
theorem step_effect {s t : State} (h : step s = .next t) :
    t = s ∨ ∃ c rest e b u, s.pending = c :: rest ∧ ({ s with pending := rest } : State).Effect c e b u ∧
      t = e.close b u := by
  unfold step at h
  split at h
  · exact .inl (Outcome.next.inj h).symm
  · next c rest hp =>
    obtain ⟨e, b, u, hx, hu⟩ := exec_effect h
    exact .inr ⟨c, rest, e, b, u, hp, hu, hx⟩

/-- Settles O4. -/
theorem busSoundKept : Obligations.BusSoundKept := by
  unfold Obligations.BusSoundKept
  intro s t hs ht
  rcases step_effect ht with rfl | ⟨c, rest, e, b, u, _, hu, rfl⟩
  · exact hs
  · exact e.close_sound b u (hu.rbc_sound hs)

end Sys2Proof.Machine

/-! ### What the Carry Unit's operations write

`State.CarryOnly`: the queue, the Carry Unit and the bus controller alone. -/

namespace Sys2Proof.Machine

open Host

/-- A state differs from another in the queue, the Carry Unit and the bus controller alone. -/
def State.CarryOnly (s t : State) : Prop := { t with queue := s.queue, carry := s.carry, rbc := s.rbc } = s

namespace State.CarryOnly

variable {s t u : State}

theorem refl (s : State) : s.CarryOnly s := rfl

theorem trans (h : s.CarryOnly t) (g : t.CarryOnly u) : s.CarryOnly u := by
  rcases s with ⟨⟩; rcases t with ⟨⟩; rcases u with ⟨⟩
  simp_all [CarryOnly]

theorem requeue (h : s.CarryOnly t) (q : AlertQueue) : s.CarryOnly { t with queue := q } := h

theorem loader (h : s.CarryOnly t) : t.loader = s.loader := by have := congrArg State.loader h; exact this
theorem time (h : s.CarryOnly t) : t.time = s.time := by have := congrArg State.time h; exact this
theorem zone (h : s.CarryOnly t) : t.zone = s.zone := by have := congrArg State.zone h; exact this
theorem view (h : s.CarryOnly t) : t.view = s.view := by have := congrArg State.view h; exact this
theorem call (h : s.CarryOnly t) : t.call = s.call := by have := congrArg State.call h; exact this
theorem clock (h : s.CarryOnly t) : t.clock = s.clock := by have := congrArg State.clock h; exact this
theorem ind (h : s.CarryOnly t) : t.ind = s.ind := by have := congrArg State.ind h; exact this

end State.CarryOnly

section
variable (s : State)

theorem State.raise_carryOnly (e : Event) : s.CarryOnly (s.raise e) := by
  unfold State.raise
  split <;> rfl

theorem State.raiseAll_carryOnly (events : List Event) : s.CarryOnly (s.raiseAll events) := by
  unfold State.raiseAll
  induction events generalizing s with
  | nil => exact .refl s
  | cons e rest ih => exact (s.raise_carryOnly e).trans (ih _)

theorem State.endOffer_carryOnly : s.CarryOnly s.endOffer := by
  unfold State.endOffer
  split
  · exact .refl s
  · dsimp only
    split <;> rfl

theorem State.endAccept_carryOnly : s.CarryOnly s.endAccept := by
  unfold State.endAccept
  split <;> rfl

theorem State.dropBid_carryOnly (origin : Nat) (seq : Byte) : s.CarryOnly (s.dropBid origin seq) := by
  unfold State.dropBid
  split
  · exact s.endAccept_carryOnly
  · exact .refl s

theorem State.deliver_carryOnly (r : Record) : s.CarryOnly (s.deliver r) := by
  unfold State.deliver
  dsimp only
  split
  · exact .trans (t := { s with
      queue := s.queue.deliver s.time r
      carry := match r.kind with
        | .carried c => if c.orphaned then s.carry else s.carry.addOutcome c.origin c.originSeq .delivered
        | .own _ => s.carry }) rfl (State.raise_carryOnly _ _)
  · rfl

theorem State.takeOffer_carryOnly (f : OfferFields) : s.CarryOnly (s.takeOffer f) := by
  unfold State.takeOffer
  (repeat' split) <;> rfl

theorem State.takeAccept_carryOnly (f : AcceptFields) : s.CarryOnly (s.takeAccept f) := by
  unfold State.takeAccept State.acceptOffer
  split
  · (repeat' split) <;> rfl
  · exact s.dropBid_carryOnly _ _

theorem State.takeCarry_carryOnly (f : CarryFields) : s.CarryOnly (s.takeCarry f) := by
  unfold State.takeCarry State.takeInCarry
  dsimp only
  split
  · refine (s.dropBid_carryOnly f.origin f.seq).trans ?_
    (repeat' split) <;> rfl
  · exact s.dropBid_carryOnly _ _

theorem State.outcomeDelivered_carryOnly (r : Record) : s.CarryOnly (s.outcomeDelivered r) := by
  unfold State.outcomeDelivered
  split
  · exact .refl s
  · exact s.deliver_carryOnly r
  · exact s.deliver_carryOnly r
  · exact s.endOffer_carryOnly.trans (State.deliver_carryOnly _ r)

theorem State.outcomeReturned_carryOnly (sender : Nat) (r : Record) : s.CarryOnly (s.outcomeReturned sender r) := by
  unfold State.outcomeReturned
  (repeat' split) <;> rfl

theorem State.takeOutcome_carryOnly (f : OutcomeFields) : s.CarryOnly (s.takeOutcome f) := by
  unfold State.takeOutcome
  split
  · split
    · split
      · exact s.outcomeDelivered_carryOnly _
      · exact s.outcomeReturned_carryOnly _ _
    · exact .refl s
  · exact .refl s

theorem State.takeState_carryOnly (f : StateFields) : s.CarryOnly (s.takeState f) := by
  unfold State.takeState
  split
  · have hmarked : s.CarryOnly (State.dropOutcomes f.sender { s with queue := { s.queue with
        records := s.queue.records.map (orphan f.sender) } }) := rfl
    dsimp only
    split
    · split
      · exact hmarked.trans (State.endAccept_carryOnly _)
      · exact hmarked
    · exact hmarked
  · exact .refl s

theorem State.countAttempt_carryOnly (r : Record) (also : Record → Record) : s.CarryOnly (s.countAttempt r also).1 := by
  unfold State.countAttempt
  dsimp only
  rw [State.checkAttempts_keeps]
  rfl

theorem State.countUnanswered_carryOnly (r : Record) : s.CarryOnly (s.countUnanswered r).1 := by
  unfold State.countUnanswered
  split
  · exact s.countAttempt_carryOnly r _
  · rfl

theorem State.offerUnanswered_carryOnly (o : Offer) : s.CarryOnly (s.offerUnanswered o) := by
  unfold State.offerUnanswered
  dsimp only
  split
  · rfl
  · next r _ =>
    have hended : s.CarryOnly { s with carry := { s.carry with offer := none } } := rfl
    have hcounted := hended.trans (State.countUnanswered_carryOnly _ r)
    exact (hcounted.requeue _).trans (State.raiseAll_carryOnly _ _)

end

/-- The tone detector and the digits: no line is touched. -/
@[simp] theorem State.dialFrom_view (digits : List DialDigit) (s : State) : (s.dialFrom digits).view = s.view := by
  unfold State.dialFrom
  split <;> rfl

@[simp] theorem State.hear_view (next : ToneClass) (ms : Nat) (s : State) : (s.hear next ms).view = s.view := by
  unfold State.hear
  split <;> rfl

@[simp] theorem State.clockReady_view (s : State) : s.clockReady.view = s.view := by simp [State.clockReady]

end Sys2Proof.Machine

/-! ### F and the wiring of a line

`State.KeepsLines` says that no entry's F and wiring moved. It holds of every effect but those of reset, start-up, a
dial tone, and a line-caused failure (R68, R69, R170). -/

namespace Sys2Proof.Machine

open Host

/-- What of an entry no claim, frame or event moves: F and whether the line is wired. -/
def Entry.linePart (e : Entry) : Nat × Bool := (e.failures, e.wired)

/-- F and the wiring of every line stay. -/
def State.KeepsLines (s t : State) : Prop := ∀ k, (t.entry k).linePart = (s.entry k).linePart

namespace State.KeepsLines

variable {s t u : State}

theorem refl (s : State) : s.KeepsLines s := fun _ => rfl

theorem trans (h : s.KeepsLines t) (g : t.KeepsLines u) : s.KeepsLines u := fun k => (g k).trans (h k)

theorem of_view (hv : t.view.entries = s.view.entries) : s.KeepsLines t := fun k => by
  rw [State.entry, State.entry, LineView.get, hv, LineView.get]

theorem after (h : t.KeepsLines u) (hv : t.view.entries = s.view.entries) : s.KeepsLines u := (of_view hv).trans h

theorem next (h : s.KeepsLines t) (hv : u.view.entries = t.view.entries) : s.KeepsLines u := h.trans (of_view hv)

/-- One entry changed elsewhere. -/
theorem of_update {k : LineId} {f : Entry → Entry} (hv : t.view.entries = (s.view.update k f).entries)
    (hf : ∀ e, (f e).linePart = e.linePart) : s.KeepsLines t := fun j => by
  rw [State.entry, LineView.get, hv, ← LineView.get, LineView.get_update]
  split
  · exact hf _
  · rfl

theorem failures (h : s.KeepsLines t) (k : LineId) : (t.entry k).failures = (s.entry k).failures :=
  congrArg Prod.fst (h k)

theorem wired (h : s.KeepsLines t) (k : LineId) : (t.entry k).wired = (s.entry k).wired := congrArg Prod.snd (h k)

theorem of_settled (h : State.Settled s t) : s.KeepsLines t := fun k => by
  have := h.entries k
  exact (congrArg Entry.linePart this : _)

end State.KeepsLines

/-! ### The entry's own operations -/

/-- An entry differs from another in the fields of R61 and R62 alone: holder, pending claim, on-hook timer. -/
def Entry.PeerOnly (e f : Entry) : Prop :=
  { f with holder := e.holder, pending := e.pending, onHookTimer := e.onHookTimer } = e

namespace Entry.PeerOnly

variable {e f : Entry}

theorem linePart (h : e.PeerOnly f) : f.linePart = e.linePart := by have := congrArg Entry.linePart h; exact this

theorem own (h : e.PeerOnly f) : f.own = e.own := by have := congrArg Entry.own h; exact this

theorem wired (h : e.PeerOnly f) : f.wired = e.wired := by have := congrArg Entry.wired h; exact this

end Entry.PeerOnly

section
variable (e : Entry)

theorem Entry.clearHolder_peerOnly : e.PeerOnly e.clearHolder := by
  unfold Entry.clearHolder
  split
  · split <;> rfl
  · rfl

theorem Entry.record_peerOnly (addr key : Nat) : e.PeerOnly (e.record addr key) := by
  unfold Entry.record
  dsimp only
  split <;> rfl

theorem Entry.observeClaim_peerOnly (addr key : Nat) : e.PeerOnly (e.observeClaim addr key) := by
  unfold Entry.observeClaim
  split
  · exact e.record_peerOnly addr key
  · split
    · exact e.record_peerOnly addr key
    · split
      · exact e.record_peerOnly addr key
      · rfl

theorem Entry.observeRelease_peerOnly (addr : Nat) : e.PeerOnly (e.observeRelease addr) := by
  unfold Entry.observeRelease
  split
  · exact e.clearHolder_peerOnly
  · split <;> rfl

theorem Entry.passGuard_peerOnly : e.PeerOnly e.passGuard := by
  unfold Entry.passGuard
  split
  · rfl
  · split <;> rfl

theorem Entry.passYieldLimit_peerOnly : e.PeerOnly e.passYieldLimit := by
  unfold Entry.passYieldLimit
  split <;> rfl

theorem Entry.sample_linePart (b : LineBand) : (e.sample b).linePart = e.linePart := by
  unfold Entry.sample
  dsimp only
  split <;> rfl

end

/-! ### The shared operations -/

section
variable (s : State)

theorem State.refreshTrouble_keepsLines : s.KeepsLines s.refreshTrouble := fun k => by
  rw [State.refreshTrouble_entry]
  rfl

theorem State.placeOn_keepsLines (k : LineId) (tier : Tier) (r : Record) : s.KeepsLines (s.placeOn k tier r) :=
  .of_update (k := k) rfl fun _ => rfl

theorem State.dropClaim_keepsLines (k : LineId) : s.KeepsLines (s.dropClaim k) := .of_update (k := k) rfl fun _ => rfl

theorem State.rechoose_keepsLines : s.KeepsLines s.rechoose := by
  unfold State.rechoose
  split
  · exact .of_view (by simp)
  · next r _ =>
    split
    · split
      · next k tier _ => exact .next (s.placeOn_keepsLines k tier r) (by simp)
      · exact .of_view (by simp)
    · exact .of_view (by simp)

theorem State.abandonInClaim_keepsLines (k : LineId) : s.KeepsLines (s.abandonInClaim k) :=
  (s.dropClaim_keepsLines k).trans (State.rechoose_keepsLines _)

theorem State.hangUp_keepsLines {o : CallOutcome} (ho : o.kind ≠ .lineCaused) : s.KeepsLines (s.hangUp o) := by
  cases hk : s.call.line with
  | none => rw [State.hangUp, hk]; exact .refl s
  | some k =>
    have h := State.hangUp_hungUp k o s hk
    intro j
    refine Prod.ext ?_ (by have := congrArg Entry.wired (h.entries j); exact this)
    by_cases hj : j = k
    · subst hj
      exact h.failures.trans (if_neg ho)
    · exact h.otherLines j hj

/-- Whatever the outcome, the wiring stays. -/
theorem State.hangUp_wired (o : CallOutcome) (j : LineId) : ((s.hangUp o).entry j).wired = (s.entry j).wired := by
  cases hk : s.call.line with
  | none => rw [State.hangUp, hk]
  | some k =>
    have := congrArg Entry.wired ((State.hangUp_hungUp k o s hk).entries j)
    exact this

theorem State.takeYield_keepsLines : s.KeepsLines s.takeYield := by
  have hyield : s.KeepsLines (s.hangUp .preempted) := s.hangUp_keepsLines (by decide)
  unfold State.takeYield
  split
  case h_5 => split; exacts [hyield, .refl s]
  all_goals first | exact hyield | exact .refl s

theorem State.setYield_keepsLines : s.KeepsLines s.setYield := by
  unfold State.setYield
  split
  · exact .refl s
  · exact .after (State.takeYield_keepsLines _) rfl

theorem State.claimIntoSolo_keepsLines : s.KeepsLines s.claimIntoSolo := by
  unfold State.claimIntoSolo
  split
  · next k _ _ =>
    have hpassed : s.KeepsLines { s with view := s.view.update k Entry.passOwnGuard } :=
      .of_update (k := k) rfl fun _ => rfl
    have hdone : s.KeepsLines { s with view := s.view.update k fun e => { e with ownGuardDone := true } } :=
      .of_update (k := k) (f := fun e => { e with ownGuardDone := true }) rfl fun _ => rfl
    split
    · split
      · exact .next (.next hdone rfl) (by simp)
      · exact s.abandonInClaim_keepsLines _
    · split
      · dsimp only; split
        · exact .next hpassed (by simp)
        · exact hpassed
      · exact .refl s
  · exact .refl s

theorem State.enterSolo_keepsLines : s.KeepsLines s.enterSolo := .after (State.claimIntoSolo_keepsLines _) rfl

theorem State.frameEnded_keepsLines (t : Slot) : s.KeepsLines (s.frameEnded t) := by
  unfold State.frameEnded
  split
  · unfold State.claimEnded
    split
    · exact .of_update (f := Entry.startOwnGuard) rfl fun _ => rfl
    · exact .refl s
  · exact .refl s
  · exact .of_view rfl
  · unfold State.offerEnded; split <;> exact .of_view rfl
  · exact .refl s
  · unfold State.carryEnded
    split
    · split <;> exact .of_view rfl
    · exact .refl s
  · exact .refl s
  · exact .of_view rfl

theorem State.concludeSending_keepsLines (t : Slot) : s.KeepsLines (s.concludeSending t) :=
  .after (State.frameEnded_keepsLines _ t) rfl

theorem State.afterError_keepsLines (kind : ErrorKind) (t : Slot) : s.KeepsLines (s.afterError kind t) := by
  unfold State.afterError
  split
  · split
    · exact s.concludeSending_keepsLines t
    · exact .of_view (by simp)
  · exact .of_view (by simp)

theorem State.enterBusOff_keepsLines (before : State) : s.KeepsLines (before.enterBusOff s) := by
  unfold State.enterBusOff
  split
  · dsimp only
    split
    · exact .of_view (by simp)
    · exact .after (State.enterSolo_keepsLines _) (by simp)
  · exact .refl s

theorem State.holderGone_keepsLines (k : LineId) : s.KeepsLines (s.holderGone k) := by
  have hcleared : s.KeepsLines { s with view := s.view.update k Entry.clearHolder } :=
    .of_update rfl fun e => e.clearHolder_peerOnly.linePart
  unfold State.holderGone
  dsimp only
  split
  · exact .next hcleared (by simp)
  · exact hcleared

theorem State.abandonForClock_keepsLines (k : LineId) : s.KeepsLines (s.abandonForClock k) := by
  unfold State.abandonForClock
  split
  · exact s.abandonInClaim_keepsLines k
  · exact .next (s.abandonInClaim_keepsLines k) (by simp)

theorem State.afterDelivery_keepsLines : s.KeepsLines s.afterDelivery := by
  unfold State.afterDelivery
  split
  · exact s.hangUp_keepsLines (by decide)
  · split
    · split
      · exact .of_view rfl
      · exact s.hangUp_keepsLines (by decide)
    · exact s.hangUp_keepsLines (by decide)

theorem State.recordClaim_keepsLines (f : ClaimFields) : s.KeepsLines (s.recordClaim f) :=
  .of_update rfl fun e => (e.observeClaim_peerOnly f.addr f.key).linePart

theorem State.takeClaim_keepsLines (f : ClaimFields) : s.KeepsLines (s.takeClaim f) := by
  unfold State.takeClaim
  split
  · exact .refl s
  · split
    · split
      · exact (s.dropClaim_keepsLines f.line).trans
          ((State.recordClaim_keepsLines _ f).trans (State.rechoose_keepsLines _))
      · unfold State.answerClaim
        split
        · exact (s.recordClaim_keepsLines f).trans (State.setYield_keepsLines _)
        · exact .of_view (by simp)
    · exact s.recordClaim_keepsLines f

theorem State.takeObject_keepsLines (f : ClaimFields) : s.KeepsLines (s.takeObject f) := by
  have hviewed : s.KeepsLines { s with view := s.view.update f.line (Entry.observeObject f.addr f.key) } :=
    .of_update rfl fun _ => rfl
  unfold State.takeObject
  split
  · exact .refl s
  · dsimp only
    split
    · refine hviewed.trans ?_
      unfold State.takeObjection
      split <;> first
        | exact State.abandonInClaim_keepsLines _ _
        | exact State.hangUp_keepsLines _ (by decide)
        | exact .refl _
    · exact hviewed

theorem State.takeRelease_keepsLines (f : ReleaseFields) : s.KeepsLines (s.takeRelease f) := by
  unfold State.takeRelease
  split
  · exact .refl s
  · split
    · exact s.holderGone_keepsLines _
    · exact .of_update rfl fun e => (e.observeRelease_peerOnly f.addr).linePart

theorem State.linesTimed_keepsLines (volts : Four Int) : s.KeepsLines (s.linesTimed volts) := fun k => by
  simp only [State.linesTimed, State.linesSampled, State.entry, LineView.get, LineView.timeAllDead, sampledEntries,
    Four.get_mapLines]
  split
  · exact Entry.sample_linePart _ _
  · rfl

end

/-- The commands that move F or the wiring of a line (R68, R69, R165, R170). -/
def movesLines : Instr → Bool
  | .reset => true
  | .configReadDone _ => true
  | .lineSamplePass _ => true
  | .dialToneJudged => true
  | .dialToneWaitExpiry => true
  | .lineLostTimerExpiry => true
  | _ => false

theorem sentType_movesLines {c : Instr} {type : FrameType} (h : sentType c = some type) : movesLines c = false := by
  cases c <;> first | rfl | cases h

theorem sentType_movesBase {c : Instr} {type : FrameType} (h : sentType c = some type) : movesBase c = false := by
  cases c <;> first | rfl | cases h

/-- Every other effect leaves F and the wiring. -/
theorem State.Effect.keepsLines {s b u : State} {c : Instr} {e : Ending} (h : s.Effect c e b u)
    (hc : movesLines c = false) : s.KeepsLines u := by
  cases h with
  | reset | configReadDone | linesQuiet | linesLost | linesChanged | dialToneJudged | dialToneWaitExpiry
  | lineLostTimerExpiry => cases hc
  | idle | notBeforePasses | nextOfferTimePasses => exact .refl s
  | deadTimerExpiry =>
    exact .trans
      (.of_update (f := fun e => { e with dead := true, deadTimer := false }) rfl fun _ => rfl)
      (State.refreshTrouble_keepsLines _)
  | peerIdleLimit | yieldWaitExpiry => exact s.holderGone_keepsLines _
  | stationTimeTick =>
    intro k
    simp only [State.entry, LineView.get, drainedEntries, Four.get_mapLines]
    split <;> rfl
  | transmitError => exact .after (.trans (State.afterError_keepsLines _ _ _) (State.enterBusOff_keepsLines _ s)) rfl
  | stuckEntry =>
    dsimp only
    split
    · exact .of_view (by simp)
    · exact .after (State.enterSolo_keepsLines _) (by simp)
  | stuckExit => dsimp only; split <;> exact .of_view (by simp)
  | claimReceived => exact .after (t := s.heard _ _) (State.takeClaim_keepsLines _ _) rfl
  | objectReceived => exact .after (t := s.heard _ _) (State.takeObject_keepsLines _ _) rfl
  | releaseReceived => exact .after (t := s.heard _ _) (State.takeRelease_keepsLines _ _) rfl
  | sent => exact .after (State.concludeSending_keepsLines _ _) rfl
  | pendingGuardPasses => exact .of_update rfl fun e => e.passGuard_peerOnly.linePart
  | @ownGuardPasses k => 
    have hpassed : s.KeepsLines { s with view := s.view.update k Entry.passOwnGuard } :=
      .of_update (k := k) rfl fun _ => rfl
    dsimp only
    split
    · exact .next hpassed (by simp)
    · exact hpassed
  | yieldLimitExpiry => exact .of_update rfl fun e => e.passYieldLimit_peerOnly.linePart
  | clockFailInClaim => exact .after (State.abandonForClock_keepsLines _ _) rfl
  | handshakeWaitExpiry | kissoffFailed => exact s.hangUp_keepsLines (by decide)
  | busyCadence => exact .after (State.hangUp_keepsLines _ (by decide)) rfl
  | kissoffJudged =>
    exact .after (t := s.deliverInHand _) (State.afterDelivery_keepsLines _) (congrArg _ (State.deliver_view _ _))
  | @hangUpHoldEnd k => exact .of_update (f := Entry.clearOwn) (k := k) rfl fun _ => rfl
  | offerReceived => exact .of_view (congrArg _ (State.takeOffer_carryOnly (s.heard _ _) _).view)
  | acceptReceived => exact .of_view (congrArg _ (State.takeAccept_carryOnly (s.heard _ _) _).view)
  | carryReceived => exact .of_view (congrArg _ (State.takeCarry_carryOnly (s.heard _ _) _).view)
  | outcomeReceived => exact .of_view (congrArg _ (State.takeOutcome_carryOnly (s.heard _ _) _).view)
  | stateReceived => exact .of_view (congrArg _ (State.takeState_carryOnly (s.heard _ _) _).view)
  | offerWindowExpiry => exact .of_view (congrArg _ (s.offerUnanswered_carryOnly _).view)
  | _ => first | exact .of_view rfl | exact .of_view (by simp)

/-- F stays where no line-caused failure, no dial tone and no reset comes. -/
theorem State.Effect.failures {s b u : State} {c : Instr} {e : Ending} (h : s.Effect c e b u) (hr : c ≠ .reset)
    (hc : c ∉ [.dialToneJudged, .dialToneWaitExpiry, .lineLostTimerExpiry]) (hp : ∀ v, c ≠ .lineSamplePass v)
    (k : LineId) : (u.entry k).failures = (s.entry k).failures := by
  cases hm : movesLines c with
  | false => exact (h.keepsLines hm).failures k
  | true =>
    cases h with
    | @configReadDone image =>
      rw [State.entry, beginSampling_view, joinBus, loadImage]
      split
      · simp [LineView.get, State.entry]
      · rfl
    | idle => rfl
    | reset => exact absurd rfl hr
    | linesQuiet | linesLost | linesChanged => exact absurd rfl (hp _)
    | dialToneJudged | dialToneWaitExpiry | lineLostTimerExpiry => simp at hc
    | sent hsent => exact absurd hm (by simp [sentType_movesLines hsent])
    | clash hreceipt | unread hreceipt => rfl
    | _ => cases hm

/-- TEC stays where no own attempt ends and no recovery or reset comes. -/
theorem State.Effect.txErrors {s b u : State} {c : Instr} {e : Ending} (h : s.Effect c e b u) (hr : c ≠ .reset)
    (hs : sentType c = none) (ht : ∀ kind read echo, c ≠ .transmitError kind read echo)
    (hb : ∀ read, c ≠ .busOffRecovery read) : u.rbc.txErrors = s.rbc.txErrors := by
  have hbits : ∀ (read : List Bool) (b : Rbc), (b.readBits read).txErrors = b.txErrors := fun read b => by
    obtain ⟨r, d, v, hb⟩ := Rbc.readBits_frame read b
    rw [hb]
  have hheard : ∀ f acked, (s.heard f acked).rbc.txErrors = s.rbc.txErrors := fun f acked => by
    simp only [State.heard, Rbc.endReception, Rbc.lowerRx]
    split <;> rfl
  cases hm : movesWire c with
  | false => exact (h.keepsBus hm).txErrors
  | true =>
    cases h with
    | idle => rfl
    | reset => exact absurd rfl hr
    | configReadDone => rw [beginSampling_rbc]; simp [joinBus]
    | joinPeriodEnd | passiveSuspendEnd | startOfFrameReceived => rfl
    | busIdle => exact hbits _ _
    | frameStart => exact hbits [_] _
    | receiveError =>
      simp only [Rbc.raiseRx, Rbc.signalError]
      (repeat' split) <;> simp [hbits]
    | transmitError => exact absurd rfl (ht _ _ _)
    | stuckEntry =>
      have hended := (s.endAttempt_keepsBus s.sendingUnacked).txErrors
      dsimp only
      split
      · exact hended
      · exact (State.enterSolo_keepsBus _).txErrors.trans hended
    | stuckExit => dsimp only; split <;> simp
    | busOffRecovery => exact absurd rfl (hb _)
    | clash | unread => exact hheard _ _
    | claimReceived => exact (State.takeClaim_keepsBus _ _).txErrors.trans (hheard _ _)
    | objectReceived => exact (State.takeObject_keepsBus _ _).txErrors.trans (hheard _ _)
    | releaseReceived => exact (State.takeRelease_keepsBus _ _).txErrors.trans (hheard _ _)
    | offerReceived => exact (State.takeOffer_keepsBus _ _).txErrors.trans (hheard _ _)
    | acceptReceived => exact (State.takeAccept_keepsBus _ _).txErrors.trans (hheard _ _)
    | carryReceived => exact (State.takeCarry_keepsBus _ _).txErrors.trans (hheard _ _)
    | outcomeReceived => exact (State.takeOutcome_keepsBus _ _).txErrors.trans (hheard _ _)
    | stateReceived => exact (State.takeState_keepsBus _ _).txErrors.trans (hheard _ _)
    | sent hsent => rw [hs] at hsent; cases hsent
    | arbitrationLost =>
      exact (hbits _ _).trans (s.endAttempt_keepsBus _).txErrors
    | _ => cases hm

/-- Station time moves at its tick, a reset and its release alone (R40). -/
theorem State.Effect.time {s b u : State} {c : Instr} {e : Ending} (h : s.Effect c e b u) (hr : c ≠ .reset)
    (hl : ∀ a, c ≠ .releaseOfReset a) (ht : c ≠ .stationTimeTick) : u.time = s.time := by
  cases hm : movesBase c with
  | false => exact (h.keeps hm).time
  | true =>
    cases h with
    | idle | zonesQuiet => rfl
    | reset => exact absurd rfl hr
    | releaseOfReset => exact absurd rfl (hl _)
    | configReadDone => simp [joinBus]
    | zonesChanged => simp
    | stationTimeTick => exact absurd rfl ht
    | sent hsent => exact absurd hm (by simp [sentType_movesBase hsent])
    | clash hreceipt | unread hreceipt => rfl
    | _ => cases hm

/-- The straps, the image and the settings move at reset and start-up alone (R166, R167, R169). -/
theorem State.Effect.loader {s b u : State} {c : Instr} {e : Ending} (h : s.Effect c e b u) (hr : c ≠ .reset)
    (hl : ∀ a, c ≠ .releaseOfReset a) (hi : ∀ i, c ≠ .configReadDone i) : u.loader = s.loader := by
  cases hm : movesBase c with
  | false => exact (h.keeps hm).loader
  | true =>
    cases h with
    | idle | zonesQuiet | stationTimeTick => rfl
    | reset => exact absurd rfl hr
    | releaseOfReset => exact absurd rfl (hl _)
    | configReadDone => exact absurd rfl (hi _)
    | zonesChanged => simp
    | sent hsent => exact absurd hm (by simp [sentType_movesBase hsent])
    | clash hreceipt | unread hreceipt => rfl
    | _ => cases hm

/-- Settles O10: each of the four through the effect of every other command, and through the end of the step. -/
theorem whatChangesOnlyThere : Obligations.WhatChangesOnlyThere := by
  unfold Obligations.WhatChangesOnlyThere
  intro c s t h hr
  obtain ⟨e, b, u, rfl, hu⟩ := exec_effect h
  have hs := e.close_settled b u
  refine ⟨fun hl ht => hs.time.trans (hu.time hr hl ht), fun hl hi => hs.loader.trans (hu.loader hr hl hi),
    fun hsent ht hb => ?_, fun hc hp k => ((State.KeepsLines.of_settled hs).failures k).trans (hu.failures hr hc hp k)⟩
  have hsent' : sentType c = none := by
    cases c <;> first | rfl | simp at hsent
  have hwire := congrArg Rbc.txErrors hs.wire
  exact Eq.trans hwire (hu.txErrors hr hsent' ht hb)

end Sys2Proof.Machine

/-! ### The bounds of the Alert Queue (R17, R20, R21)

They rest on what each record is named by, its admission order and, where it is an own one, its sequence number: an
operation that leaves these, or takes records out, keeps the bounds; a creation takes the next order and a sequence
number that no own record holds. -/

namespace Sys2Proof.Machine

open Host

/-- What a record is named by. -/
def Record.name (r : Record) : Nat × Option Byte := (r.order, r.ownSeq)

theorem Record.isCarried_eq (r : Record) : r.isCarried = r.ownSeq.isNone := by
  unfold Record.isCarried Record.isOwn Record.ownSeq
  cases r.kind <;> rfl

theorem Record.hasSeq_iff {seq : Byte} {r : Record} : r.hasSeq seq = true ↔ r.ownSeq = some seq := by
  unfold Record.hasSeq Record.ownSeq
  cases r.kind <;> simp

namespace AlertQueue

variable {q p : AlertQueue}

theorem carriedCount_eq (q : AlertQueue) :
    q.carriedCount = ((q.records.map Record.name).filter fun n => n.2.isNone).length := by
  rw [List.filter_map, List.length_map, carriedCount]
  congr 2
  funext r
  exact r.isCarried_eq

theorem seqs_eq (q : AlertQueue) :
    q.records.filterMap Record.ownSeq = (q.records.map Record.name).filterMap Prod.snd := by
  rw [List.filterMap_map]
  rfl

theorem orders_eq (q : AlertQueue) :
    q.records.map Record.order = (q.records.map Record.name).map Prod.fst := by
  rw [List.map_map]
  rfl

/-- The records that stay, named as they were, keep the bounds. -/
theorem Sound.of_names (h : q.Sound) (hn : (p.records.map Record.name).Sublist (q.records.map Record.name))
    (ha : q.admissions ≤ p.admissions) : p.Sound := by
  refine ⟨⟨?_, ?_⟩, ⟨?_, ?_⟩, ?_⟩
  · simpa [count] using hn.length_le.trans (by simpa [count] using h.bounded.1)
  · rw [carriedCount_eq]
    exact (hn.filter _).length_le.trans (by rw [← carriedCount_eq]; exact h.bounded.2)
  · have := h.ordered.1
    rw [orders_eq] at this ⊢
    exact this.sublist (hn.map _)
  · intro r hr
    obtain ⟨x, hx, hxr⟩ := List.mem_map.mp (hn.subset (List.mem_map_of_mem hr))
    have : x.order = r.order := congrArg Prod.fst hxr
    exact this ▸ (h.ordered.2 x hx).trans_le ha
  · have := h.seqs
    rw [SeqDistinct, seqs_eq] at this ⊢
    exact this.sublist (hn.filterMap _)

theorem Sound.of_records (h : q.Sound) (hp : p.records = q.records ∧ p.admissions = q.admissions) : p.Sound :=
  h.of_names (by rw [hp.1]) hp.2.ge

/-- A change of records that leaves their names. -/
theorem Sound.map (h : q.Sound) {f : Record → Record} (hf : ∀ r ∈ q.records, (f r).name = r.name)
    (hp : p.records = q.records.map f ∧ p.admissions = q.admissions) : p.Sound := by
  have hn : p.records.map Record.name = q.records.map Record.name := by
    rw [hp.1, List.map_map]
    exact List.map_congr_left hf
  exact h.of_names (hn ▸ .refl _) hp.2.ge

theorem Sound.modify (h : q.Sound) (order : Nat) {f : Record → Record}
    (hf : ∀ r ∈ q.records, r.order = order → (f r).name = r.name) : (q.modify order f).Sound :=
  h.map (f := fun r => if r.order = order then f r else r) (fun r hr => by
    split
    · next ho => exact hf r hr ho
    · rfl) ⟨rfl, rfl⟩

/-- The record of an order replaced by another that is named as a record of the queue is. -/
theorem Sound.replace (h : q.Sound) {r x : Record} (hr : r ∈ q.records) (hx : x.name = r.name) :
    (q.modify r.order fun _ => x).Sound :=
  h.modify r.order fun _ hy ho => by rw [hx, eq_of_order h.ordered.1 hy hr ho]

theorem Sound.remove (h : q.Sound) (order : Nat) : (q.remove order).Sound :=
  h.of_names (List.filter_sublist.map _) (Nat.le_refl _)

/-! ### The search for a sequence number (R21) -/

/-- The search stops at the first value that no own record holds, or at the end of its tries. -/
theorem freeSeq_spec (q : AlertQueue) (fuel : Nat) (seq : Byte) :
    ∃ n ≤ fuel, q.freeSeq fuel seq = seq + BitVec.ofNat 8 n ∧
      (∀ j < n, q.records.any (Record.hasSeq (seq + BitVec.ofNat 8 j)) = true) ∧
      (n < fuel → q.records.any (Record.hasSeq (q.freeSeq fuel seq)) = false) := by
  induction fuel generalizing seq with
  | zero => exact ⟨0, Nat.le_refl _, by simp [freeSeq], by simp, by simp⟩
  | succ fuel ih =>
    unfold freeSeq
    split
    · next hheld =>
      obtain ⟨n, hn, heq, hall, hfree⟩ := ih (seq + 1)
      have hadd : ∀ j : Nat, seq + 1 + BitVec.ofNat 8 j = seq + BitVec.ofNat 8 (j + 1) := fun j => by
        rw [BitVec.add_assoc]
        congr 1
        rw [Nat.add_comm j 1]
        exact (BitVec.ofNat_add 1 j).symm
      refine ⟨n + 1, by omega, by rw [heq, hadd], fun j hj => ?_, fun h => hfree (by omega)⟩
      cases j with
      | zero => simpa using hheld
      | succ j => rw [← hadd]; exact hall j (by omega)
    · next hheld => exact ⟨0, by omega, by simp, by simp, fun _ => by simpa using hheld⟩

/-- Among at most 24 records the search ends at the first free value (R21). -/
theorem nextSeq_firstFree (hq : q.count ≤ 24) : FirstFree q.records q.seqCounter q.nextSeq := by
  obtain ⟨n, hn, heq, hall, hfree⟩ := q.freeSeq_spec 25 q.seqCounter
  have hlt : n < 25 := by
    by_contra hge
    have hheld : ∀ j ∈ List.range 25, q.seqCounter + BitVec.ofNat 8 j ∈ q.records.filterMap Record.ownSeq :=
      fun j hj => by
        obtain ⟨r, hr, hs⟩ := List.any_eq_true.mp (hall j (by have := List.mem_range.mp hj; omega))
        exact List.mem_filterMap.mpr ⟨r, hr, Record.hasSeq_iff.mp hs⟩
    have hnodup : ((List.range 25).map fun j => q.seqCounter + BitVec.ofNat 8 j).Nodup := by
      refine List.nodup_range.map_on fun i hi j hj hij => ?_
      have hi := List.mem_range.mp hi
      have hj := List.mem_range.mp hj
      have := congrArg BitVec.toNat ((BitVec.add_right_inj _).mp hij)
      simp only [BitVec.toNat_ofNat] at this
      omega
    have hcount : 25 ≤ (q.records.filterMap Record.ownSeq).length := by
      have := (List.subperm_of_subset hnodup (fun x hx => by
        obtain ⟨j, hj, rfl⟩ := List.mem_map.mp hx
        exact hheld j hj)).length_le
      simpa using this
    have hle := List.length_filterMap_le Record.ownSeq q.records
    simp only [count] at hq
    omega
  refine ⟨fun r hr => ?_, n, heq, fun j hj => ?_⟩
  · have := hfree hlt
    simp only [List.any_eq_false] at this
    simpa [nextSeq] using this r hr
  · simpa using hall j hj

/-! ### Creation and admission -/

/-- A record that takes the next admission order and a sequence number that no own record holds. -/
theorem Sound.append (h : q.Sound) {r : Record} (ho : r.order = q.admissions) (hcount : q.count < 24)
    (hcarried : r.ownSeq = none → q.carriedCount < 8) (hseq : ∀ seq, r.ownSeq = some seq →
      ∀ x ∈ q.records, x.hasSeq seq = false) (hp : p.records = q.records ++ [r])
    (ha : p.admissions = q.admissions + 1) : p.Sound := by
  refine ⟨⟨?_, ?_⟩, ⟨?_, ?_⟩, ?_⟩
  · simpa [count, hp] using hcount
  · have hle := h.bounded.2
    simp only [carriedCount, hp, List.filter_append, List.length_append] at hle hcarried ⊢
    cases hs : r.ownSeq with
    | none => have := hcarried hs; simp [Record.isCarried_eq, hs] at this ⊢; omega
    | some seq => simpa [Record.isCarried_eq, hs] using hle
  · rw [hp, List.map_append]
    refine List.nodup_append.mpr ⟨h.ordered.1, by simp, fun a ha b hb hab => ?_⟩
    obtain ⟨x, hx, rfl⟩ := List.mem_map.mp ha
    simp only [List.map_cons, List.map_nil, List.mem_singleton] at hb
    exact absurd (h.ordered.2 x hx) (by omega)
  · intro x hx
    rw [hp] at hx
    rcases List.mem_append.mp hx with hx | hx
    · have := h.ordered.2 x hx
      omega
    · rw [List.mem_singleton.mp hx]
      omega
  · rw [SeqDistinct, hp, List.filterMap_append]
    refine List.nodup_append.mpr ⟨h.seqs, ?_, fun a ha b hb hab => ?_⟩
    · cases hs : r.ownSeq <;> simp [hs]
    · obtain ⟨x, hx, hxa⟩ := List.mem_filterMap.mp ha
      have hb : r.ownSeq = some b := by simpa using hb
      have := hseq b hb x hx
      rw [← hab, Bool.eq_false_iff] at this
      exact this (Record.hasSeq_iff.mpr hxa)

theorem Sound.create (h : q.Sound) (hq : q.count < 24) (now : Nat) (e : Event) : (q.create now e).Sound :=
  h.append (r := q.ownRecord now e) rfl hq (fun hn => by cases hn) (fun seq hs => by
    have hs : q.nextSeq = seq := Option.some.inj hs
    exact hs ▸ (nextSeq_firstFree (Nat.le_of_lt hq)).1) rfl rfl

theorem Sound.takeCarried (h : q.Sound) (hq : q.hasRoom = true) (now : Nat) (f : CarryFields) :
    (q.takeCarried now f).Sound := by
  obtain ⟨hcount, hcarried⟩ : q.count < 24 ∧ q.carriedCount < 8 := by simpa [hasRoom] using hq
  exact h.append (r := {
      kind := .carried ⟨f.origin, f.seq, f.account, f.grade, now, false⟩
      source := f.source, qualifier := f.qualifier, cls := f.cls, rep := f.rep
      attempts := 0, notBefore := now, second := false, order := q.admissions, state := .waiting })
    rfl hcount (fun _ => hcarried) (fun _ hs => by cases hs) rfl rfl

theorem remove_count_lt {r : Record} (hr : r ∈ q.records) : (q.remove r.order).count < q.count := by
  simp only [AlertQueue.remove, count]
  exact List.length_filter_lt_length_iff_exists.mpr ⟨r, hr, by simp⟩

theorem lastOf_mem {now : Nat} {l : List Record} {r : Record} (h : lastOf now l = some r) : r ∈ l := by
  induction l generalizing r with
  | nil => cases h
  | cons y rest ih =>
    simp only [lastOf] at h
    split at h
    · exact List.mem_cons.mpr (.inl (Option.some.inj h).symm)
    · next m hm =>
      split at h
      · exact List.mem_cons_of_mem _ (ih (hm.trans h))
      · exact List.mem_cons.mpr (.inl (Option.some.inj h).symm)

/-- A displacement takes the place of an own WAITING record of class 3 to 6, of a class above the event's (R31). -/
theorem victim_spec {now cls : Nat} {v : Record} (h : q.victim now cls = some v) :
    v ∈ q.records ∧ v.isOwn = true ∧ v.state = .waiting ∧ 3 ≤ v.cls ∧ cls < v.cls := by
  have := lastOf_mem h
  simpa [Record.waiting, and_assoc] using this

theorem Sound.createOrDisplace (h : q.Sound) (now : Nat) (e : Event) : (q.createOrDisplace now e).Sound := by
  unfold AlertQueue.createOrDisplace
  split
  · next hcount => exact h.create hcount now e
  · split
    · next v hv =>
      have hroom := (remove_count_lt (victim_spec hv).1).trans_le h.bounded.1
      exact ((h.remove v.order).create hroom now e).of_records ⟨rfl, rfl⟩
    · exact h.of_records ⟨rfl, rfl⟩

theorem bump_name (r : Record) : (bump r).name = r.name := rfl

theorem Sound.takeEvent (h : q.Sound) (now : Nat) (e : Event) : (q.takeEvent now e).1.Sound := by
  unfold AlertQueue.takeEvent
  split
  · exact h.createOrDisplace now e
  · next latest _ =>
    split
    · exact h.modify _ fun r _ _ => bump_name r
    · split
      · split
        · exact (h.remove latest.order).modify _ fun r _ _ => bump_name r
        · exact h.createOrDisplace now e
      · exact h.createOrDisplace now e

theorem Sound.afterDeparture (h : q.Sound) (now : Nat) : (q.afterDeparture now).Sound := by
  unfold AlertQueue.afterDeparture
  split
  · exact (h.takeEvent now overflowEvent).of_records ⟨rfl, rfl⟩
  · exact h

theorem Sound.admitEvent (h : q.Sound) (now : Nat) (e : Event) : (q.admitEvent now e).Sound := by
  unfold AlertQueue.admitEvent
  split
  · exact (h.takeEvent now e).afterDeparture now
  · exact h.takeEvent now e

theorem Sound.depart (h : q.Sound) (now order : Nat) : (q.depart now order).Sound :=
  (h.remove order).afterDeparture now

theorem Sound.giveBack (h : q.Sound) (now order : Nat) : (q.giveBack now order).Sound := by
  unfold AlertQueue.giveBack
  split
  · exact h
  · split
    · exact h.modify _ fun _ _ _ => rfl
    · next w _ => exact ((h.remove w.order).modify order fun r _ _ => by rfl).afterDeparture now

theorem Sound.giveBackAll (h : q.Sound) (now : Nat) : (q.giveBackAll now).Sound := by
  unfold AlertQueue.giveBackAll
  induction q.inCall generalizing q with
  | nil => exact h
  | cons r rest ih => exact ih (h.giveBack now r.order)

theorem Sound.deliver (h : q.Sound) (now : Nat) (r : Record) : (q.deliver now r).Sound :=
  Sound.depart (by exact h.of_records ⟨rfl, rfl⟩) now r.order

theorem find_mem {order : Nat} {r : Record} (h : q.find order = some r) : r ∈ q.records ∧ r.order = order :=
  ⟨List.mem_of_find?_eq_some h, by simpa using List.find?_some h⟩

theorem findSeq_mem {seq : Byte} {r : Record} (h : q.findSeq seq = some r) : r ∈ q.records ∧ r.hasSeq seq = true :=
  ⟨List.mem_of_find?_eq_some h, List.find?_some h⟩

end AlertQueue

/-! ### The shared operations -/

section
variable {s : State}

theorem State.callInHand_mem {r : Record} (h : s.callInHand = some r) : r ∈ s.queue.records := by
  unfold State.callInHand at h
  split at h
  · exact (AlertQueue.find_mem h).1
  · cases h

theorem State.raise_sound (h : s.queue.Sound) (e : Event) : (s.raise e).queue.Sound := by
  unfold State.raise
  split
  · exact h
  · exact h.admitEvent _ e

theorem State.raiseAll_sound (h : s.queue.Sound) (events : List Event) : (s.raiseAll events).queue.Sound := by
  unfold State.raiseAll
  induction events generalizing s with
  | nil => exact h
  | cons e rest ih => exact ih (State.raise_sound h e)

theorem State.refreshTrouble_sound (h : s.queue.Sound) : s.refreshTrouble.queue.Sound :=
  State.raiseAll_sound (s := { s with
      view := { s.view with entries := s.view.entries.mapLines fun _ e =>
                  { e with trouble := e.inTrouble s.loader.settings.lineThreshold } }
      free := if 2 ≤ s.troubleChanges.length then s.free + 4 else s.free }) h _

theorem State.checkAttempts_sound (h : s.queue.Sound) (r : Record) : (s.checkAttempts r).1.queue.Sound := by
  unfold State.checkAttempts
  split
  · split
    · dsimp only
      split
      · exact AlertQueue.Sound.depart (by exact h.of_records ⟨rfl, rfl⟩) _ _
      · exact h.of_records ⟨rfl, rfl⟩
    · split
      · exact h.depart _ _
      · exact h
  · exact h

theorem State.countAttempt_sound (h : s.queue.Sound) {r : Record} (hr : r ∈ s.queue.records)
    {also : Record → Record} (ha : ∀ x, (also x).name = x.name) : (s.countAttempt r also).1.queue.Sound :=
  State.checkAttempts_sound (h.replace hr (ha { r with attempts := raisedAttempts r })) _

theorem State.account_sound (h : s.queue.Sound) (k : LineId) (o : CallOutcome) : (s.account k o).1.queue.Sound := by
  unfold State.account
  split
  · unfold State.accountLine
    dsimp only
    split
    · exact h.modify _ fun _ _ _ => rfl
    · exact h
  · unfold State.accountCentre
    split
    · exact h
    · next r hr => exact State.countAttempt_sound h (State.callInHand_mem hr) fun _ => rfl
  · exact h
  · exact h
  · exact h

theorem State.hangUp_sound (h : s.queue.Sound) (o : CallOutcome) : (s.hangUp o).queue.Sound := by
  unfold State.hangUp
  split
  · exact h
  · next k _ =>
    have hacc := State.account_sound (s := s.releaseLine o) h k o
    refine State.refreshTrouble_sound (State.raiseAll_sound ?_ _)
    split
    · exact hacc.giveBackAll _
    · exact hacc.giveBackAll _

theorem State.giveUpCall_sound (h : s.queue.Sound) : s.giveUpCall.queue.Sound := h.giveBackAll _

theorem State.rechoose_sound (h : s.queue.Sound) : s.rechoose.queue.Sound := by
  unfold State.rechoose
  split
  · exact State.giveUpCall_sound h
  · split
    · split
      · simpa using h
      · exact State.giveUpCall_sound h
    · exact State.giveUpCall_sound h

theorem State.abandonInClaim_sound (h : s.queue.Sound) (k : LineId) : (s.abandonInClaim k).queue.Sound :=
  State.rechoose_sound (by simpa using h)

theorem State.takeYield_sound (h : s.queue.Sound) : s.takeYield.queue.Sound := by
  unfold State.takeYield
  split
  case h_5 => split; exacts [State.hangUp_sound h _, h]
  all_goals first | exact State.hangUp_sound h _ | exact h

theorem State.setYield_sound (h : s.queue.Sound) : s.setYield.queue.Sound := by
  unfold State.setYield
  split
  · exact h
  · exact State.takeYield_sound h

theorem State.claimIntoSolo_sound (h : s.queue.Sound) : s.claimIntoSolo.queue.Sound := by
  unfold State.claimIntoSolo
  split
  · split
    · split
      · simpa using h
      · exact State.abandonInClaim_sound h _
    · split
      · dsimp only; split <;> simpa using h
      · exact h
  · exact h

theorem State.enterSolo_sound (h : s.queue.Sound) : s.enterSolo.queue.Sound := State.claimIntoSolo_sound h

theorem State.leaveSolo_sound (h : s.queue.Sound) : s.leaveSolo.queue.Sound := by
  unfold State.leaveSolo
  dsimp only
  split
  · exact State.raise_sound (by exact h) _
  · exact h

theorem State.frameEnded_sound (h : s.queue.Sound) (t : Slot) : (s.frameEnded t).queue.Sound := by
  unfold State.frameEnded
  split
  · unfold State.claimEnded; split <;> exact h
  · exact h
  · exact h
  · unfold State.offerEnded; split <;> exact h
  · exact h
  · unfold State.carryEnded
    split
    · split
      · dsimp only
        split
        · exact h.modify _ fun _ _ _ => rfl
        · exact h
      · exact h
    · exact h
  · exact h
  · exact h

theorem State.concludeSending_sound (h : s.queue.Sound) (t : Slot) : (s.concludeSending t).queue.Sound :=
  State.frameEnded_sound (by exact h) t

theorem State.afterError_sound (h : s.queue.Sound) (kind : ErrorKind) (t : Slot) :
    (s.afterError kind t).queue.Sound := by
  unfold State.afterError
  split
  · split
    · exact State.concludeSending_sound h t
    · simpa using h
  · simpa using h

theorem State.enterBusOff_queueSound (h : s.queue.Sound) (before : State) : (before.enterBusOff s).queue.Sound := by
  unfold State.enterBusOff
  split
  · dsimp only
    split
    · exact h
    · exact State.enterSolo_sound h
  · exact h

theorem offerAgainAt_name (time : Nat) (r : Record) : (offerAgainAt time r).name = r.name := by
  rcases hk : r.kind with o | c <;> simp [offerAgainAt, Record.name, Record.ownSeq, hk]

theorem State.offerUnanswered_sound (h : s.queue.Sound) (o : Offer) : (s.offerUnanswered o).queue.Sound := by
  unfold State.offerUnanswered
  dsimp only
  split
  · exact h
  · next r hr =>
    have hcounted : ∀ a : State, a.queue = s.queue → (a.countUnanswered r).1.queue.Sound := fun a ha => by
      unfold State.countUnanswered
      split
      · exact State.countAttempt_sound (ha ▸ h) (ha ▸ (AlertQueue.findSeq_mem hr).1) (offerAgainAt_name _)
      · exact AlertQueue.Sound.modify (ha ▸ h) _ fun x _ _ => offerAgainAt_name _ x
    exact State.raiseAll_sound (AlertQueue.Sound.giveBack (by exact hcounted _ rfl) _ _) _

theorem State.deliver_sound (h : s.queue.Sound) (r : Record) : (s.deliver r).queue.Sound := by
  unfold State.deliver
  dsimp only
  split
  · exact State.raise_sound (h.deliver _ r) _
  · exact h.deliver _ r

theorem State.afterDelivery_sound (h : s.queue.Sound) : s.afterDelivery.queue.Sound := by
  unfold State.afterDelivery
  split
  · exact State.hangUp_sound h _
  · split
    · split
      · exact h.modify _ fun _ _ _ => rfl
      · exact State.hangUp_sound h _
    · exact State.hangUp_sound h _

theorem State.takeClaim_sound (h : s.queue.Sound) (f : ClaimFields) : (s.takeClaim f).queue.Sound := by
  unfold State.takeClaim
  split
  · exact h
  · split
    · split
      · have hdropped : ((s.dropClaim f.line).recordClaim f).queue = s.queue := State.dropClaim_queue s f.line
        exact State.rechoose_sound (hdropped ▸ h)
      · unfold State.answerClaim
        split
        · exact State.setYield_sound (s := s.recordClaim f) h
        · simpa using h
    · exact h

theorem State.takeObject_sound (h : s.queue.Sound) (f : ClaimFields) : (s.takeObject f).queue.Sound := by
  unfold State.takeObject
  split
  · exact h
  · dsimp only
    split
    · unfold State.takeObjection
      split
      · exact State.abandonInClaim_sound (by exact h) _
      · exact State.hangUp_sound (by exact h) _
      · exact State.hangUp_sound (by exact h) _
      · exact State.hangUp_sound (by exact h) _
      all_goals exact h
    · exact h

theorem State.takeCarry_sound (h : s.queue.Sound) (f : CarryFields) : (s.takeCarry f).queue.Sound := by
  have hended : (s.dropBid f.origin f.seq).queue.Sound := by
    unfold State.dropBid
    split <;> simpa using h
  unfold State.takeCarry
  dsimp only
  split
  · unfold State.takeInCarry
    split
    · exact hended
    · split
      · next hroom => exact hended.takeCarried hroom _ f
      · exact hended
  · exact hended

theorem State.takeOutcome_sound (h : s.queue.Sound) (f : OutcomeFields) : (s.takeOutcome f).queue.Sound := by
  unfold State.takeOutcome
  split
  · split
    · next r _ =>
      split
      · unfold State.outcomeDelivered
        split
        · exact h
        · exact State.deliver_sound h r
        · exact State.deliver_sound h r
        · exact State.deliver_sound (by simpa using h) r
      · unfold State.outcomeReturned
        split
        · split
          · exact (h.modify r.order fun x _ _ => by rfl).giveBack s.time r.order
          · exact h
        all_goals exact h
    · exact h
  · exact h

theorem State.orphan_name (origin : Nat) (r : Record) : (State.orphan origin r).name = r.name := by
  unfold State.orphan
  split
  · rfl
  · next hk => split <;> simp [Record.name, Record.ownSeq, hk]

theorem State.takeState_sound (h : s.queue.Sound) (f : StateFields) : (s.takeState f).queue.Sound := by
  unfold State.takeState
  split
  · have hmarked : (State.dropOutcomes f.sender { s with queue := { s.queue with
        records := s.queue.records.map (State.orphan f.sender) } }).queue.Sound :=
      h.map (fun r _ => State.orphan_name f.sender r) ⟨rfl, rfl⟩
    dsimp only
    split
    · split
      · simpa using hmarked
      · exact hmarked
    · exact hmarked
  · exact h

theorem State.takeRelease_queue (f : ReleaseFields) : (s.takeRelease f).queue = s.queue := by
  unfold State.takeRelease
  (repeat' split) <;> simp

theorem State.takeOffer_queue (f : OfferFields) : (s.takeOffer f).queue = s.queue := by
  unfold State.takeOffer
  (repeat' split) <;> rfl

theorem State.takeAccept_queue (f : AcceptFields) : (s.takeAccept f).queue = s.queue := by
  unfold State.takeAccept State.acceptOffer State.dropBid
  (repeat' split) <;> simp

theorem State.dialFrom_queue (digits : List DialDigit) : (s.dialFrom digits).queue = s.queue := by
  unfold State.dialFrom
  split <;> rfl

theorem State.lineProved_queue : s.lineProved.queue = s.queue := by
  unfold State.lineProved
  split <;> rfl

theorem State.hear_queue (next : ToneClass) (ms : Nat) : (s.hear next ms).queue = s.queue := by
  unfold State.hear
  split <;> rfl

theorem loadImage_queue (image : BitVec 416) : (loadImage image s).queue = s.queue := by
  unfold loadImage
  split <;> rfl

theorem AlertQueue.Sound.reset : AlertQueue.reset.Sound :=
  ⟨⟨by decide, by decide⟩, ⟨List.nodup_nil, by simp [AlertQueue.reset]⟩, List.nodup_nil⟩

theorem State.abandonForClock_sound (h : s.queue.Sound) (k : LineId) : (s.abandonForClock k).queue.Sound := by
  unfold State.abandonForClock
  split
  · exact State.abandonInClaim_sound h k
  · exact State.abandonInClaim_sound h k

theorem watchLine_queue (before s : State) : (watchLine before s).queue = s.queue := by
  unfold watchLine
  split
  · rfl
  · split <;> rfl

theorem beginSampling_sound (h : s.queue.Sound) : (beginSampling s).queue.Sound := by
  unfold beginSampling
  split
  · exact h
  · exact State.raise_sound h _

end

/-- The bounds through the effect of every command. -/
theorem State.Effect.queue_sound {s b u : State} {c : Instr} {e : Ending} (h : s.Effect c e b u)
    (hs : s.queue.Sound) : u.queue.Sound := by
  cases h with
  | reset => exact .reset
  | configReadDone => exact beginSampling_sound (by rw [joinBus, loadImage_queue]; exact hs)
  | zonesChanged => exact State.raiseAll_sound (by exact hs) _
  | testTimerExpiry | busTroubleTimerExpiry => exact State.raise_sound (by exact hs) _
  | linesLost => exact State.hangUp_sound (by exact hs) _
  | linesChanged => exact State.refreshTrouble_sound (by rw [watchLine_queue]; exact hs)
  | deadTimerExpiry => exact State.refreshTrouble_sound (by exact hs)
  | peerIdleLimit | yieldWaitExpiry => rw [State.holderGone_queue]; exact hs
  | carryTimeout => exact hs.giveBack _ _
  | transmitError => exact State.enterBusOff_queueSound (State.afterError_sound (by exact hs) _ _) s
  | stuckEntry =>
    dsimp only
    split
    · simpa using hs
    · exact State.enterSolo_sound (by simpa using hs)
  | stuckExit =>
    dsimp only
    split
    · exact hs
    · exact State.leaveSolo_sound (by exact hs)
  | busOffRecovery => exact State.leaveSolo_sound (by exact hs)
  | claimReceived => exact State.takeClaim_sound (by exact hs) _
  | objectReceived => exact State.takeObject_sound (by exact hs) _
  | releaseReceived => rw [State.takeRelease_queue]; exact hs
  | offerReceived => rw [State.takeOffer_queue]; exact hs
  | acceptReceived => rw [State.takeAccept_queue]; exact hs
  | carryReceived => exact State.takeCarry_sound (by exact hs) _
  | outcomeReceived => exact State.takeOutcome_sound (by exact hs) _
  | stateReceived => exact State.takeState_sound (by exact hs) _
  | sent => exact State.concludeSending_sound (by exact hs) _
  | ownGuardPasses => dsimp only; split <;> simpa using hs
  | offerWindowExpiry => exact State.offerUnanswered_sound hs _
  | clockWarm | clockSteady => simpa [State.clockReady] using hs
  | clockFailInClaim => exact State.abandonForClock_sound (by exact hs) _
  | dialToneJudged =>
    have hdialled : s.lineProved.enterDial.queue = s.queue := by
      rw [State.enterDial, State.dialFrom_queue]
      exact State.lineProved_queue
    exact State.refreshTrouble_sound (hdialled ▸ hs)
  | digitEnd => rw [State.dialFrom_queue]; exact hs
  | toneClassChange | toneGapLimit => rw [State.hear_queue]; exact hs
  | dialToneWaitExpiry | handshakeWaitExpiry | kissoffFailed | lineLostTimerExpiry => exact State.hangUp_sound hs _
  | busyCadence => exact State.hangUp_sound (by exact hs) _
  | kissoffJudged => exact State.afterDelivery_sound (State.deliver_sound hs _)
  | _ => first | exact hs | simpa using hs

/-- Settles O3. -/
theorem queueSoundKept : Obligations.QueueSoundKept := by
  unfold Obligations.QueueSoundKept
  intro s t hs ht
  rcases step_effect ht with rfl | ⟨c, rest, e, b, u, _, hu, rfl⟩
  · exact hs
  · have hsame := (e.close_settled b u).sameButStates
    refine AlertQueue.Sound.of_names (hu.queue_sound (by exact hs)) ?_ ?_
    · have := congrArg (List.map Record.name) hsame.records
      simp only [List.map_map] at this
      exact this ▸ .refl _
    · have := congrArg AlertQueue.admissions hsame.rest
      exact Eq.ge this

end Sys2Proof.Machine

/-! ### The law of HOOK and SEIZE (R118, R119)

`State.SameLine` gathers what most commands leave of it. A claim dropped leaves the station `State.LineFreed`, with no own
entry and nothing driven; a placement makes it sound again. -/

namespace Sys2Proof.Machine

open Host

/-- What the law reads stays: the call's line and outputs, whether it is IDLE or on the line, fast-ready, the clock's
state, and of every entry the own flag and the wiring. -/
structure State.SameLine (s t : State) : Prop where
  loader : t.loader = s.loader
  clock : t.clock.state = s.clock.state
  release : t.clock.releaseTimer = true → s.clock.releaseTimer = true
  line : t.call.line = s.call.line
  hook : t.call.hook = s.call.hook
  seize : t.call.seize = s.call.seize
  fastReady : t.call.fastReady = s.call.fastReady
  idle : t.call.state = .idle ↔ s.call.state = .idle
  onLine : t.call.state.onLine = s.call.state.onLine
  own : ∀ k, (t.entry k).own = (s.entry k).own
  wired : ∀ k, (t.entry k).wired = (s.entry k).wired

namespace State.SameLine

variable {s t u : State}

theorem refl (s : State) : s.SameLine s :=
  ⟨rfl, rfl, id, rfl, rfl, rfl, rfl, Iff.rfl, rfl, fun _ => rfl, fun _ => rfl⟩

theorem trans (h : s.SameLine t) (g : t.SameLine u) : s.SameLine u where
  loader := g.loader.trans h.loader
  clock := g.clock.trans h.clock
  release hr := h.release (g.release hr)
  line := g.line.trans h.line
  hook := g.hook.trans h.hook
  seize := g.seize.trans h.seize
  fastReady := g.fastReady.trans h.fastReady
  idle := g.idle.trans h.idle
  onLine := g.onLine.trans h.onLine
  own k := (g.own k).trans (h.own k)
  wired k := (g.wired k).trans (h.wired k)

/-- An operation that leaves the call, the clock, the loader and the entries. -/
theorem of_same (h : t.loader = s.loader ∧ t.clock = s.clock ∧ t.call = s.call ∧ t.view.entries = s.view.entries) :
    s.SameLine t := by
  obtain ⟨hl, hk, hc, hv⟩ := h
  have he : ∀ k, t.entry k = s.entry k := fun k => by
    rw [State.entry, State.entry, LineView.get, hv, LineView.get]
  exact ⟨hl, by rw [hk], by rw [hk]; exact id, by rw [hc], by rw [hc], by rw [hc], by rw [hc], by rw [hc], by rw [hc],
    fun k => by rw [he], fun k => by rw [he]⟩

/-- The entries changed elsewhere. -/
theorem of_entries (ho : ∀ k, (t.entry k).own = (s.entry k).own) (hw : ∀ k, (t.entry k).wired = (s.entry k).wired)
    (h : t.loader = s.loader ∧ t.clock = s.clock ∧ t.call = s.call) : s.SameLine t := by
  obtain ⟨hl, hk, hc⟩ := h
  exact ⟨hl, by rw [hk], by rw [hk]; exact id, by rw [hc], by rw [hc], by rw [hc], by rw [hc], by rw [hc], by rw [hc], ho,
    hw⟩

/-- One entry changed elsewhere. -/
theorem of_update {k : LineId} {f : Entry → Entry} (hv : t.view.entries = (s.view.update k f).entries)
    (ho : ∀ e, (f e).own = e.own) (hw : ∀ e, (f e).wired = e.wired)
    (h : t.loader = s.loader ∧ t.clock = s.clock ∧ t.call = s.call) : s.SameLine t := by
  have he : ∀ j, t.entry j = if j = k then f (s.entry j) else s.entry j := fun j => by
    rw [State.entry, LineView.get, hv, ← LineView.get, LineView.get_update]
    rfl
  refine of_entries (fun j => ?_) (fun j => ?_) h <;> rw [he] <;> split
  · exact ho _
  · rfl
  · exact hw _
  · rfl

theorem of_carryOnly (h : s.CarryOnly t) : s.SameLine t := of_same ⟨h.loader, h.clock, h.call, congrArg _ h.view⟩

/-- The law rests on what stays. -/
theorem sound (h : s.SameLine t) (hs : s.LineSound) : t.LineSound where
  idle := by rw [h.idle, h.line]; exact hs.idle
  idleReady hi := by rw [h.fastReady]; exact hs.idleReady (h.idle.mp hi)
  own k := by rw [h.own, h.line]; exact hs.own k
  wired k hk := by rw [h.wired]; exact hs.wired k (h.line ▸ hk)
  hook k hk := by rw [h.line, h.onLine]; exact hs.hook k (h.hook ▸ hk)
  seize k hk := by rw [h.line, h.onLine]; exact hs.seize k (h.seize ▸ hk)
  ready hr := by rw [h.clock]; exact hs.ready (h.fastReady ▸ hr)
  onLine ho := by rw [h.clock]; exact hs.onLine (h.onLine ▸ ho)
  release hr := h.idle.mpr (hs.release (h.release hr))
  unread hu := by
    obtain ⟨hi, hw⟩ := hs.unread (h.loader ▸ hu)
    exact ⟨h.idle.mpr hi, fun k => by rw [h.wired]; exact hw k⟩
  phases := by rw [h.loader]; exact hs.phases

end State.SameLine

theorem State.LineSound.same {s t : State} (hs : s.LineSound) (h : s.SameLine t) : t.LineSound := h.sound hs

/-! ### The candidate is wired (R99, Table 4-3) -/

theorem Entry.wired_of_derived {e : Entry} (h : e.derived ≠ .notWired) : e.wired = true := by
  by_contra hn
  exact h (by simp [Entry.derived, hn])

theorem lowestScore_mem {v : Four Entry} {l : List LineId} {k : LineId} (h : lowestScore v l = some k) : k ∈ l := by
  induction l generalizing k with
  | nil => cases h
  | cons j rest ih =>
    simp only [lowestScore] at h
    split at h
    · exact List.mem_cons.mpr (.inl (Option.some.inj h).symm)
    · next m hm =>
      split at h
      · exact List.mem_cons_of_mem _ (ih (hm.trans h))
      · exact List.mem_cons.mpr (.inl (Option.some.inj h).symm)

theorem highestKey_mem {v : Four Entry} {l : List LineId} {k : LineId} (h : highestKey v l = some k) : k ∈ l := by
  induction l generalizing k with
  | nil => cases h
  | cons j rest ih =>
    simp only [highestKey] at h
    split at h
    · exact List.mem_cons.mpr (.inl (Option.some.inj h).symm)
    · next m hm =>
      split at h
      · exact List.mem_cons_of_mem _ (ih (hm.trans h))
      · exact List.mem_cons.mpr (.inl (Option.some.inj h).symm)

theorem mem_linesWhere {p : Entry → Bool} {v : Four Entry} {k : LineId} : k ∈ linesWhere p v ↔ p (v.get k) = true := by
  have : k ∈ LineId.all := by cases k <;> decide
  simp [linesWhere, this]

/-- A candidate line comes from a tier of FREE, OFFICE or PEER lines, so it is wired. -/
theorem candidate_wired {v : Four Entry} {solo : Bool} {cls : Nat} {k : LineId} {tier : Tier}
    (h : candidate v solo cls = some (k, tier)) : (v.get k).wired = true := by
  refine Entry.wired_of_derived ?_
  unfold candidate at h
  split at h
  · next j hj =>
    have hd := mem_linesWhere.mp (lowestScore_mem hj)
    cases h
    simp only [Bool.and_eq_true, decide_eq_true_eq] at hd
    simp [hd.1]
  · split at h
    · next j hj =>
      have hd := mem_linesWhere.mp (lowestScore_mem hj)
      cases h
      simp only [Bool.and_eq_true, decide_eq_true_eq] at hd
      simp [hd.1.1]
    · split at h
      · next j hj =>
        have hd := mem_linesWhere.mp (lowestScore_mem hj)
        cases h
        simp only [Bool.and_eq_true, decide_eq_true_eq] at hd
        simp [hd.1]
      · split at h
        · cases h
        · split at h
          · next j hj =>
            have hd := mem_linesWhere.mp (highestKey_mem hj)
            cases h
            simp only [preemptable, Bool.and_eq_true, decide_eq_true_eq] at hd
            simp [hd.1]
          · cases h

/-! ### Reports to the Call Engine -/

/-- A claim in CLAIM whose own entry is clear and which drives nothing (R66, R102, R125). -/
structure State.LineFreed (s : State) : Prop where
  state : s.call.state = .claim
  own : ∀ k, (s.entry k).own = false
  hook : ∀ k, s.call.hook.get k = false
  seize : ∀ k, s.call.seize.get k = false
  ready : s.call.fastReady = true → s.clock.state = .active
  release : s.clock.releaseTimer = false
  read : s.loader.inReset = false ∧ s.loader.reading = false

namespace State.LineSound

variable {s t : State}

/-- Off the line nothing is driven. -/
theorem undriven (h : s.LineSound) (ho : s.call.state.onLine = false) (k : LineId) :
    s.call.hook.get k = false ∧ s.call.seize.get k = false := by
  refine ⟨?_, ?_⟩ <;> rw [Bool.eq_false_iff] <;> intro hk
  · rw [(h.hook k hk).2] at ho
    cases ho
  · rw [(h.seize k hk).2] at ho
    cases ho

/-- In a call the configuration has been read. -/
theorem read (h : s.LineSound) (hi : s.call.state ≠ .idle) : s.loader.inReset = false ∧ s.loader.reading = false := by
  refine ⟨?_, ?_⟩ <;> rw [Bool.eq_false_iff] <;> intro hu
  · exact hi (h.unread (.inl hu)).1
  · exact hi (h.unread (.inr hu)).1

theorem noRelease (h : s.LineSound) (hi : s.call.state ≠ .idle) : s.clock.releaseTimer = false :=
  Bool.eq_false_iff.mpr fun hr => hi (h.release hr)

/-- From CLAIM to the line, with fast-ready held (R126, R127). -/
theorem seized (h : s.LineSound) {k : LineId} (hline : s.call.line = some k) (hclaim : s.call.state = .claim)
    (hready : s.call.fastReady = true) (ht : t.call.line = s.call.line) (hst : t.call.state = .seize)
    (hseize : t.call.seize = s.call.seize.set k true)
    (hhook : t.call.hook = s.call.hook ∨ t.call.hook = s.call.hook.set k true) (hclock : t.clock = s.clock)
    (hview : t.view = s.view) (hloader : t.loader = s.loader) : t.LineSound := by
  have hoff : s.call.state.onLine = false := by rw [hclaim]; rfl
  have hset : ∀ (f : Four Bool) j, f.get j = false → (f.set k true).get j = true → j = k := fun f j hj hs => by
    by_contra hne
    rw [Four.get_set_other _ _ hne, hj] at hs
    cases hs
  have hne : s.call.state ≠ .idle := by rw [hclaim]; decide
  refine ⟨?_, ?_, fun j => ?_, fun j hj => ?_, fun j hj => ?_, fun j hj => ?_, fun _ => ?_, fun _ => ?_, fun hr => ?_,
    fun hu => ?_, ?_⟩
  · rw [hst, ht, hline]; simp
  · rw [hst]; intro hi; cases hi
  · rw [State.entry, hview, ht]; exact h.own j
  · rw [State.entry, hview]; exact h.wired j (ht ▸ hj)
  · refine ⟨?_, by rw [hst]; rfl⟩
    rcases hhook with hh | hh <;> rw [hh] at hj
    · rw [(h.undriven hoff j).1] at hj; cases hj
    · rw [ht, hline, hset _ j (h.undriven hoff j).1 hj]
  · refine ⟨?_, by rw [hst]; rfl⟩
    rw [hseize] at hj
    rw [ht, hline, hset _ j (h.undriven hoff j).2 hj]
  · rw [hclock]; exact h.ready hready
  · rw [hclock]; exact h.ready hready
  · rw [hclock, h.noRelease hne] at hr; cases hr
  · rw [hloader] at hu; exact absurd (h.unread hu).1 hne
  · rw [hloader]; exact h.phases

theorem trySeize (h : s.LineSound) : s.trySeize.LineSound := by
  unfold State.trySeize
  split
  · next hc =>
    obtain ⟨hclaim, -, hready⟩ := hc
    split
    · next k hk =>
      unfold State.enterSeize
      dsimp only
      split
      · exact h.seized hk hclaim hready rfl rfl rfl (.inl rfl) rfl rfl rfl
      · exact h.seized hk hclaim hready rfl rfl rfl (.inr rfl) rfl rfl rfl
    · exact h
  · exact h

/-- A change of the call in its other fields. -/
theorem of_call (h : s.LineSound) (hc : t.call.line = s.call.line ∧ t.call.hook = s.call.hook ∧
      t.call.seize = s.call.seize ∧ t.call.fastReady = s.call.fastReady)
    (hs : (t.call.state = .idle ↔ s.call.state = .idle) ∧ t.call.state.onLine = s.call.state.onLine)
    (hr : t.clock = s.clock ∧ t.view.entries = s.view.entries ∧ t.loader = s.loader) : t.LineSound := by
  obtain ⟨hline, hhook, hseize, hready⟩ := hc
  obtain ⟨hidle, honLine⟩ := hs
  obtain ⟨hclock, hview, hloader⟩ := hr
  have he : ∀ k, t.entry k = s.entry k := fun k => by
    rw [State.entry, State.entry, LineView.get, hview, LineView.get]
  exact State.SameLine.sound ⟨hloader, by rw [hclock], by rw [hclock]; exact id, hline, hhook, hseize, hready, hidle,
    honLine, fun k => by rw [he], fun k => by rw [he]⟩ h

theorem reportGuardDone (h : s.LineSound) : s.reportGuardDone.LineSound := by
  unfold State.reportGuardDone
  split
  · exact trySeize (h.of_call ⟨rfl, rfl, rfl, rfl⟩ ⟨Iff.rfl, rfl⟩ ⟨rfl, rfl, rfl⟩)
  · exact h

/-- Fast-ready is reported by an ACTIVE clock (R162). -/
theorem reportFastReady (h : s.LineSound) (ha : s.clock.state = .active) : s.reportFastReady.LineSound := by
  unfold State.reportFastReady
  split
  · exact h
  · next hi =>
    refine trySeize ⟨h.idle, fun hidle => absurd hidle hi, h.own, h.wired, h.hook, h.seize, fun _ => ha, h.onLine,
      h.release, h.unread, h.phases⟩

theorem requestClock (h : s.LineSound) : s.requestClock.LineSound := by
  unfold State.requestClock
  split
  · next hq =>
    split
    · exact h
    · refine ⟨h.idle, h.idleReady, h.own, h.wired, h.hook, h.seize, fun hr => ?_, fun ho => ?_, h.release, h.unread,
        h.phases⟩
      · exact absurd (h.ready hr) (by rw [hq]; decide)
      · exact absurd (h.onLine ho) (by rw [hq]; decide)
  · exact h
  · next ha =>
    refine reportFastReady ?_ ha
    exact ⟨h.idle, h.idleReady, h.own, h.wired, h.hook, h.seize, h.ready, h.onLine, fun hr => (by cases hr), h.unread,
      h.phases⟩

/-! ### Claims -/

/-- A claim dropped in CLAIM (R66, R102). -/
theorem dropClaim (h : s.LineSound) (hs : s.call.state = .claim) {k : LineId} (hk : s.call.line = some k) :
    (s.dropClaim k).LineFreed := by
  have hne : s.call.state ≠ .idle := by rw [hs]; decide
  have hdriven := h.undriven (by rw [hs]; rfl)
  refine ⟨by simp [State.dropClaim, State.clearOwnFields, hs], fun j => ?_, fun j => ?_, fun j => ?_, fun hr => ?_,
    ?_, by simpa using h.read hne⟩
  · have he : (s.dropClaim k).entry j = if j = k then (s.entry j).clearOwn else s.entry j :=
      LineView.get_update s.view j k Entry.clearOwn
    rw [he]
    split
    · rfl
    · next hj =>
      rw [Bool.eq_false_iff]
      intro ho
      exact hj (Option.some.inj (((h.own j).mp ho).symm.trans hk))
  · exact (hdriven j).1
  · exact (hdriven j).2
  · simpa using h.ready hr
  · simpa using h.noRelease hne

end State.LineSound

namespace State.LineFreed

variable {s t : State}

/-- A claim placed on a wired line (R101). -/
theorem placeOn (h : s.LineFreed) {k : LineId} (hw : (s.entry k).wired = true) (tier : Tier) (r : Record) :
    (s.placeOn k tier r).LineSound := by
  have hentry : ∀ j, (s.placeOn k tier r).entry j =
      if j = k then (s.entry j).placeOwn (r.key s.time s.address) tier s.solo else s.entry j :=
    fun j => LineView.get_update s.view j k _
  have hstate : (s.placeOn k tier r).call.state = .claim := h.state
  refine ⟨by simp [h.state, State.placeOn], by simp [h.state, State.placeOn], fun j => ?_,
    fun j hj => ?_, fun j hj => ?_, fun j hj => ?_,
    h.ready, fun ho => (by rw [hstate] at ho; cases ho), fun hr => absurd (h.release.symm.trans hr) (by decide), fun hu => ?_,
    fun hp => absurd (h.read.1.symm.trans hp.1) (by decide)⟩
  · rw [hentry]
    by_cases hj : j = k
    · subst hj; simp [Entry.placeOwn, State.placeOn]
    · simp [hj, h.own j, State.placeOn, Ne.symm hj]
  · have hj : k = j := Option.some.inj hj
    subst hj
    rw [hentry, if_pos rfl]
    exact hw
  · exact absurd ((h.hook j).symm.trans hj) (by decide)
  · exact absurd ((h.seize j).symm.trans hj) (by decide)
  · rcases hu with hu | hu
    · exact absurd (h.read.1.symm.trans hu) (by decide)
    · exact absurd (h.read.2.symm.trans hu) (by decide)

/-- The claim given up: the engine IDLE, the release timer running (R102, R164). -/
theorem giveUpCall (h : s.LineFreed) : s.giveUpCall.LineSound := by
  have hentry : ∀ j, s.giveUpCall.entry j = s.entry j := fun j => by simp [State.entry]
  refine ⟨by simp [State.giveUpCall, State.enterIdle, CallEngine.idle],
    by simp [State.giveUpCall, State.enterIdle, CallEngine.idle], fun j => ?_, fun j hj => (by cases hj), fun j hj => ?_,
    fun j hj => ?_, fun hr => (by cases hr), fun ho => (by cases ho), fun _ => rfl, fun hu => ?_,
    fun hp => absurd (h.read.1.symm.trans hp.1) (by decide)⟩
  · rw [hentry, h.own j]
    simp [State.giveUpCall, State.enterIdle, CallEngine.idle]
  · simp [State.giveUpCall, State.enterIdle, CallEngine.idle] at hj
  · simp [State.giveUpCall, State.enterIdle, CallEngine.idle] at hj
  · rcases hu with hu | hu
    · exact absurd (h.read.1.symm.trans hu) (by decide)
    · exact absurd (h.read.2.symm.trans hu) (by decide)

/-- The choice taken afresh (R102). -/
theorem rechoose (h : s.LineFreed) : s.rechoose.LineSound := by
  unfold State.rechoose
  split
  · exact h.giveUpCall
  · split
    · split
      · next hc => exact (h.placeOn (candidate_wired hc) _ _).trySeize
      · exact h.giveUpCall
    · exact h.giveUpCall

/-- The CLAIM heard is recorded on the entry given up (R103). -/
theorem recordClaim (h : s.LineFreed) (f : ClaimFields) : (s.recordClaim f).LineFreed := by
  refine ⟨h.state, fun j => ?_, h.hook, h.seize, h.ready, h.release, h.read⟩
  have he : (s.recordClaim f).entry j =
      if j = f.line then (s.entry j).observeClaim f.addr f.key else s.entry j := LineView.get_update s.view j f.line _
  rw [he]
  split
  · exact ((s.entry j).observeClaim_peerOnly f.addr f.key).own.trans (h.own j)
  · exact h.own j

end State.LineFreed

namespace State.LineSound

variable {s t : State}

theorem abandonInClaim (h : s.LineSound) (hs : s.call.state = .claim) {k : LineId} (hk : s.call.line = some k) :
    (s.abandonInClaim k).LineSound :=
  (h.dropClaim hs hk).rechoose

/-- A call begun from IDLE (R101, R125). -/
theorem startCall (h : s.LineSound) (hi : s.call.state = .idle) {k : LineId} (hw : (s.entry k).wired = true)
    (tier : Tier) (r : Record) : (s.startCall r k tier).LineSound := by
  have hline := h.idle.mp hi
  have hread : s.loader.inReset = false ∧ s.loader.reading = false := by
    refine ⟨?_, ?_⟩ <;> rw [Bool.eq_false_iff] <;> intro hu
    · exact absurd (((h.unread (.inl hu)).2 k).symm.trans hw) (by decide)
    · exact absurd (((h.unread (.inr hu)).2 k).symm.trans hw) (by decide)
  have hdriven := h.undriven (by rw [hi]; rfl)
  have htaken : State.LineFreed { s with
      queue := s.queue.modify r.order fun x => { x with state := .inCall }
      call := { s.call with state := .claim, lead := some r.order, inHand := some r.order, batch := 0, sends := 0 }
      clock := { s.clock with releaseTimer := false } } := by
    refine ⟨rfl, fun j => ?_, fun j => (hdriven j).1, fun j => (hdriven j).2, h.ready, rfl, hread⟩
    rw [Bool.eq_false_iff]
    intro ho
    have := (h.own j).mp ho
    rw [hline] at this
    cases this
  unfold State.startCall
  exact (htaken.placeOn hw tier r).requestClock.trySeize

theorem choose (h : s.LineSound) : s.choose.LineSound := by
  unfold State.choose
  split
  · next hi =>
    split
    · exact h
    · split
      · next hc => exact h.startCall hi.1 (candidate_wired hc) _ _
      · exact h
  · exact h

theorem makeOffer (h : s.LineSound) : s.makeOffer.LineSound := h.same (.of_same (by simp))

/-- The end of a step keeps the law. -/
theorem close (h : s.LineSound) (e : Ending) (b : State) : (e.close b s).LineSound := by
  have hchecked : (State.checkAccept b s).LineSound := h.same (.of_same (by simp))
  have hafresh : (e.afresh b s).LineSound := by
    cases e with
    | none => exact h
    | frames => exact h
    | choice => exact hchecked.choose
    | full =>
      have hfree : State.LineSound { State.checkAccept b s with free := (State.checkAccept b s).free + 1 } :=
        hchecked.same (.of_same ⟨rfl, rfl, rfl, rfl⟩)
      simp only [Ending.afresh, State.chooseAndOffer]
      split
      · split
        · exact hfree.makeOffer.choose
        · exact hfree.choose.makeOffer
      · exact hchecked.choose.makeOffer
  rcases e.close_eq b s with he | he <;> rw [he]
  · exact h
  · exact hafresh.same (.of_same (by simp))

/-! ### Hanging up, and the call on the line -/

theorem hangUp (h : s.LineSound) (o : CallOutcome) : (s.hangUp o).LineSound := by
  cases hk : s.call.line with
  | none => rw [State.hangUp, hk]; exact h
  | some k =>
    have hu := State.hangUp_hungUp k o s hk
    have hne : s.call.state ≠ .idle := fun hi => by rw [h.idle.mp hi] at hk; cases hk
    have hown : ∀ j, ((s.hangUp o).entry j).own = (s.entry j).own := fun j => by
      have := congrArg Entry.own (hu.entries j)
      exact this
    have hline : (s.hangUp o).call.line = s.call.line := by rw [hu.call]; rfl
    have hstate : (s.hangUp o).call.state = .hangup := by rw [hu.call]; rfl
    refine ⟨by rw [hstate, hline, hk]; simp, fun hi => ?_, fun j => ?_,
    fun j hj => ?_, fun j hj => ?_, fun j hj => ?_,
      fun hr => ?_, fun ho => ?_, fun hr => ?_, fun hl => ?_, by rw [hu.loader]; exact h.phases⟩
    · rw [hstate] at hi; cases hi
    · rw [hown, hline]; exact h.own j
    · rw [State.hangUp_wired]; exact h.wired j (hline ▸ hj)
    · rw [hu.call] at hj; simp [CallEngine.hungUp] at hj
    · rw [hu.call] at hj; simp [CallEngine.hungUp] at hj
    · rw [hu.clock]; rw [hu.call] at hr; exact h.ready hr
    · rw [hstate] at ho; cases ho
    · rw [hu.clock] at hr; exact absurd (h.release hr) hne
    · rw [hu.loader] at hl; exact absurd (h.unread hl).1 hne

theorem takeYield (h : s.LineSound) : s.takeYield.LineSound := by
  unfold State.takeYield
  split
  case h_5 => split; exacts [h.hangUp _, h]
  all_goals first | exact h.hangUp _ | exact h

theorem setYield (h : s.LineSound) : s.setYield.LineSound := by
  unfold State.setYield
  split
  · exact h
  · exact takeYield (h.of_call ⟨rfl, rfl, rfl, rfl⟩ ⟨Iff.rfl, rfl⟩ ⟨rfl, rfl, rfl⟩)

/-- A line that leaves the own fields through an entry of its own. -/
theorem update (h : s.LineSound) (k : LineId) {f : Entry → Entry} (ho : ∀ e, (f e).own = e.own)
    (hw : ∀ e, (f e).wired = e.wired) : State.LineSound { s with view := s.view.update k f } :=
  h.same (.of_update (k := k) (f := f) rfl ho hw ⟨rfl, rfl, rfl⟩)

theorem claimIntoSolo (h : s.LineSound) : s.claimIntoSolo.LineSound := by
  unfold State.claimIntoSolo
  split
  · next k hs hk =>
    have hpassed := h.update k (f := Entry.passOwnGuard) (fun _ => rfl) fun _ => rfl
    have hdone := h.update k (f := fun e => { e with ownGuardDone := true }) (fun _ => rfl) fun _ => rfl
    split
    · split
      · exact (hdone.same (.of_same ⟨rfl, rfl, rfl, rfl⟩) : State.LineSound (State.cancel (Marker.claims k)
          { s with view := s.view.update k fun e => { e with ownGuardDone := true } })).reportGuardDone
      · exact h.abandonInClaim hs hk
    · split
      · dsimp only; split
        · exact hpassed.reportGuardDone
        · exact hpassed
      · exact h
  · exact h

theorem enterSolo (h : s.LineSound) : s.enterSolo.LineSound :=
  claimIntoSolo (h.same (.of_same ⟨rfl, rfl, rfl, rfl⟩))

theorem enterBusOff (h : s.LineSound) (before : State) : (before.enterBusOff s).LineSound := by
  unfold State.enterBusOff
  split
  · have hdropped : (State.dropReleases { s with rbc := { s.rbc with recovery := 0 } }).LineSound :=
      h.same (.of_same ⟨rfl, rfl, rfl, rfl⟩)
    dsimp only
    split
    · exact hdropped
    · exact hdropped.enterSolo
  · exact h

theorem holderGone (h : s.LineSound) (k : LineId) : (s.holderGone k).LineSound := by
  have hcleared := h.update k (fun e => e.clearHolder_peerOnly.own) fun e => e.clearHolder_peerOnly.wired
  unfold State.holderGone
  dsimp only
  split
  · exact hcleared.reportGuardDone
  · exact hcleared

theorem takeClaim (h : s.LineSound) (f : ClaimFields) : (s.takeClaim f).LineSound := by
  have hrecorded : (s.recordClaim f).LineSound :=
    h.update f.line (fun e => (e.observeClaim_peerOnly f.addr f.key).own)
      fun e => (e.observeClaim_peerOnly f.addr f.key).wired
  unfold State.takeClaim
  split
  · exact h
  · split
    · next hown =>
      have hline := (h.own f.line).mp (Bool.and_eq_true _ _ ▸ hown).1
      split
      · next hs => exact ((h.dropClaim hs.1 hline).recordClaim f).rechoose
      · unfold State.answerClaim
        split
        · exact hrecorded.setYield
        · exact h.same (.of_same (by simp))
    · exact hrecorded

theorem takeObject (h : s.LineSound) (f : ClaimFields) : (s.takeObject f).LineSound := by
  have hviewed := h.update f.line (f := Entry.observeObject f.addr f.key) (fun _ => rfl) fun _ => rfl
  unfold State.takeObject
  split
  · exact h
  · dsimp only
    split
    · next hown =>
      have hline := (h.own f.line).mp hown
      unfold State.takeObjection
      split
      · next hs => exact hviewed.abandonInClaim hs hline
      · exact hviewed.hangUp _
      · exact hviewed.hangUp _
      · exact hviewed.hangUp _
      all_goals exact hviewed
    · exact hviewed

theorem takeRelease (h : s.LineSound) (f : ReleaseFields) : (s.takeRelease f).LineSound := by
  unfold State.takeRelease
  split
  · exact h
  · split
    · exact h.holderGone _
    · exact h.update _ (fun e => (e.observeRelease_peerOnly f.addr).own) fun e => (e.observeRelease_peerOnly f.addr).wired

theorem frameEnded (h : s.LineSound) (t : Slot) : (s.frameEnded t).LineSound := by
  unfold State.frameEnded
  split
  · unfold State.claimEnded
    split
    · exact h.update _ (fun _ => rfl) fun _ => rfl
    · exact h
  · exact h
  · exact h.same (.of_same ⟨rfl, rfl, rfl, rfl⟩)
  · unfold State.offerEnded
    split
    · exact h.same (.of_same ⟨rfl, rfl, rfl, rfl⟩)
    · exact h
  · exact h
  · unfold State.carryEnded
    split
    · split
      · exact h.same (.of_same ⟨rfl, rfl, rfl, rfl⟩)
      · exact h
    · exact h
  · exact h
  · exact h.same (.of_same ⟨rfl, rfl, rfl, rfl⟩)

theorem concludeSending (h : s.LineSound) (t : Slot) : (s.concludeSending t).LineSound :=
  frameEnded (by exact h.same (.of_same ⟨rfl, rfl, rfl, rfl⟩)) t

theorem afterError (h : s.LineSound) (kind : ErrorKind) (t : Slot) : (s.afterError kind t).LineSound := by
  unfold State.afterError
  split
  · split
    · exact h.concludeSending t
    · exact h.same (.of_same (by simp))
  · exact h.same (.of_same (by simp))

/-- A state on the line goes on to another. -/
theorem proceed (h : s.LineSound) (ho : s.call.state.onLine = true) (hn : t.call.state.onLine = true)
    (hc : t.call.line = s.call.line ∧ t.call.hook = s.call.hook ∧ t.call.seize = s.call.seize ∧
      t.call.fastReady = s.call.fastReady)
    (hr : t.clock = s.clock ∧ t.view.entries = s.view.entries ∧ t.loader = s.loader) : t.LineSound := by
  have hne : ∀ st : CallState, st.onLine = true → st ≠ .idle := fun st hst hi => by rw [hi] at hst; cases hst
  exact h.of_call hc ⟨iff_of_false (hne _ hn) (hne _ ho), hn.trans ho.symm⟩ hr

theorem dialFrom (h : s.LineSound) (ho : s.call.state.onLine = true) (digits : List DialDigit) :
    (s.dialFrom digits).LineSound := by
  unfold State.dialFrom
  split
  · exact h.proceed ho rfl ⟨rfl, rfl, rfl, rfl⟩ ⟨rfl, rfl, rfl⟩
  · exact h.of_call ⟨rfl, rfl, rfl, rfl⟩ ⟨Iff.rfl, rfl⟩ ⟨rfl, rfl, rfl⟩
  · exact h.of_call ⟨rfl, rfl, rfl, rfl⟩ ⟨Iff.rfl, rfl⟩ ⟨rfl, rfl, rfl⟩

theorem enterSend (h : s.LineSound) (ho : s.call.state.onLine = true) (r : Record) : (s.enterSend r).LineSound :=
  h.proceed ho rfl ⟨rfl, rfl, rfl, rfl⟩ ⟨rfl, rfl, rfl⟩

/-- HOOK closes on the call's line in SEIZE (R127). -/
theorem closeHook (h : s.LineSound) (ho : s.call.state.onLine = true) {k : LineId} (hk : s.call.line = some k) :
    (s.closeHook k).LineSound := by
  refine ⟨h.idle, h.idleReady, h.own, h.wired, fun j hj => ?_, h.seize, h.ready, h.onLine, h.release, h.unread, h.phases⟩
  refine ⟨?_, ho⟩
  by_cases hjk : j = k
  · rw [hjk]; exact hk
  · have : s.call.hook.get j = true := by simpa [State.closeHook, Four.get_set_other _ _ hjk] using hj
    exact (h.hook j this).1

theorem deliverInHand (h : s.LineSound) (r : Record) : (s.deliverInHand r).LineSound :=
  h.of_call (t := s.deliverInHand r) ⟨rfl, rfl, rfl, rfl⟩ ⟨Iff.rfl, rfl⟩
    ⟨s.deliver_clock r, congrArg _ (s.deliver_view r), s.deliver_loader r⟩

theorem afterDelivery (h : s.LineSound) : s.afterDelivery.LineSound := by
  unfold State.afterDelivery
  split
  · exact h.hangUp _
  · split
    · split
      · exact h.of_call ⟨rfl, rfl, rfl, rfl⟩ ⟨Iff.rfl, rfl⟩ ⟨rfl, rfl, rfl⟩
      · exact h.hangUp _
    · exact h.hangUp _

theorem onLine_of_timing {state : CallState} {timer : CallTimer} (h : s.timing state timer = true)
    (ho : state.onLine = true) : s.call.state.onLine = true := by
  have := (of_decide_eq_true h).1
  rw [this]
  exact ho

/-- The hold ends on the call's line: nothing is driven, the engine is IDLE (R140, R164). -/
theorem endHold (h : s.LineSound) {k : LineId} (hk : s.call.line = some k) :
    (s.clearOwnFields k).enterIdle.LineSound := by
  have hne : s.call.state ≠ .idle := fun hi => by rw [h.idle.mp hi] at hk; cases hk
  have he : ∀ j, ((s.clearOwnFields k).enterIdle).entry j = if j = k then (s.entry j).clearOwn else s.entry j :=
    fun j => LineView.get_update s.view j k Entry.clearOwn
  refine ⟨by simp [State.enterIdle, CallEngine.idle], by simp [State.enterIdle, CallEngine.idle], fun j => ?_,
    fun j hj => (by cases hj), fun j hj => ?_, fun j hj => ?_, fun hr => (by cases hr), fun ho => (by cases ho), fun _ => rfl,
    fun hu => absurd (h.unread hu).1 hne, h.phases⟩
  · rw [he]
    refine iff_of_false ?_ (by simp [State.enterIdle, CallEngine.idle])
    split
    · simp [Entry.clearOwn]
    · next hj => exact fun ho => hj (Option.some.inj (((h.own j).mp ho).symm.trans hk))
  · simp [State.enterIdle, CallEngine.idle] at hj
  · simp [State.enterIdle, CallEngine.idle] at hj

/-! ### The clock -/

/-- A clock that is WARMING has been reported to no call and no call is on the line. -/
theorem warming (h : s.LineSound) (hw : s.clock.state = .warming) :
    s.call.fastReady = false ∧ s.call.state.onLine = false := by
  refine ⟨?_, ?_⟩ <;> rw [Bool.eq_false_iff] <;> intro hr
  · exact absurd (h.ready hr) (by rw [hw]; decide)
  · exact absurd (h.onLine hr) (by rw [hw]; decide)

/-- The clock changed while no call holds fast-ready or is on the line. -/
theorem of_clock (h : s.LineSound) (hf : s.call.fastReady = false) (ho : s.call.state.onLine = false)
    (c : ClockUnit) (hr : c.releaseTimer = true → s.clock.releaseTimer = true) :
    State.LineSound { s with clock := c } :=
  ⟨h.idle, h.idleReady, h.own, h.wired, h.hook, h.seize, fun hr => absurd (hf.symm.trans hr) (by decide),
    fun hn => absurd (ho.symm.trans hn) (by decide), fun ht => h.release (hr ht), h.unread, h.phases⟩

theorem clockReady (h : s.LineSound) : s.clockReady.LineSound :=
  reportFastReady (s := { s with clock := { s.clock with state := .active, warmTimer := .absent, steady := true } })
    ⟨h.idle, h.idleReady, h.own, h.wired, h.hook, h.seize, fun _ => rfl, fun _ => rfl, h.release, h.unread, h.phases⟩ rfl

theorem abandonForClock (h : s.LineSound) (hs : s.call.state = .claim) {k : LineId} (hk : s.call.line = some k) :
    (s.abandonForClock k).LineSound := by
  unfold State.abandonForClock
  split
  · exact h.abandonInClaim hs hk
  · exact (h.abandonInClaim hs hk).same (.of_same (by simp))

/-! ### Start-up -/

theorem reset : State.reset.LineSound where
  idle := by decide
  idleReady := by decide
  own k := by cases k <;> decide
  wired k hk := by cases hk
  hook k hk := by cases k <;> cases hk
  seize k hk := by cases k <;> cases hk
  ready := by decide
  onLine := by decide
  release := by decide
  unread _ := ⟨rfl, fun k => by cases k <;> rfl⟩
  phases := by decide

/-- The lines are wired as the read ends, with the engine IDLE (R170). -/
theorem loadImage (h : s.LineSound) (hr : s.loader.reading = true) (image : BitVec 416) :
    (Machine.loadImage image s).LineSound := by
  obtain ⟨hi, hw⟩ := h.unread (.inr hr)
  have hreset : s.loader.inReset ≠ true := fun hn => h.phases ⟨hn, hr⟩
  have hline := h.idle.mp hi
  have hover : ∀ P : Prop, s.loader.inReset = true ∨ false = true → P := fun P hn => by
    rcases hn with hn | hn
    · exact absurd hn hreset
    · cases hn
  unfold Machine.loadImage
  split
  · refine ⟨h.idle, h.idleReady, fun k => ?_, fun k hk => absurd (hline.symm.trans hk) (by simp), h.hook, h.seize, h.ready,
      h.onLine, h.release, fun hn => hover _ hn, fun hn => hreset hn.1⟩
    simpa [State.entry, LineView.get] using h.own k
  · exact ⟨h.idle, h.idleReady, h.own, h.wired, h.hook, h.seize, h.ready, h.onLine, h.release, fun hn => hover _ hn,
      fun hn => hreset hn.1⟩

end State.LineSound

/-! ### The lines as sampled -/

section
variable (s : State)

theorem Entry.sample_own (b : LineBand) (e : Entry) : (e.sample b).own = e.own := by
  unfold Entry.sample
  dsimp only
  split <;> rfl

theorem State.linesTimed_sameLine (volts : Four Int) : s.SameLine (s.linesTimed volts) := by
  refine .of_entries (fun k => ?_) (s.linesTimed_keepsLines volts).wired ⟨rfl, rfl, rfl⟩
  simp only [State.linesTimed, State.linesSampled, State.entry, LineView.get, LineView.timeAllDead, sampledEntries,
    Four.get_mapLines]
  split
  · exact Entry.sample_own _ _
  · rfl

theorem State.linesSampled_sameLine (volts : Four Int) : s.SameLine (s.linesSampled volts) :=
  (s.linesTimed_sameLine volts).trans (.of_same ⟨rfl, rfl, rfl, rfl⟩)

theorem State.refreshTrouble_sameLine : s.SameLine s.refreshTrouble :=
  .of_entries (fun k => by rw [State.refreshTrouble_entry]) s.refreshTrouble_keepsLines.wired (by simp)

theorem State.drained_sameLine : s.SameLine { s with
    time := s.time + 1
    view := { s.view with entries := drainedEntries s.view.entries }
    zone := { s.zone with testTimer := s.zone.testTimer.map fun t => t - 1 } } := by
  refine .of_entries (fun k => ?_) (fun k => ?_) ⟨rfl, rfl, rfl⟩ <;>
    simp only [State.entry, LineView.get, drainedEntries, Four.get_mapLines] <;> split <;> rfl

end

theorem State.LineSound.watchLine {s : State} (h : s.LineSound) (before : State) : (watchLine before s).LineSound := by
  unfold Machine.watchLine
  split
  · exact h.of_call ⟨rfl, rfl, rfl, rfl⟩ ⟨Iff.rfl, rfl⟩ ⟨rfl, rfl, rfl⟩
  · split
    · exact h.of_call ⟨rfl, rfl, rfl, rfl⟩ ⟨Iff.rfl, rfl⟩ ⟨rfl, rfl, rfl⟩
    · exact h

theorem State.LineSound.hear {s : State} (h : s.LineSound) (next : ToneClass) (ms : Nat) : (s.hear next ms).LineSound := by
  unfold State.hear
  split <;> exact h.same (.of_same ⟨rfl, rfl, rfl, rfl⟩)

/-- DIAL entered from SEIZE (R128). -/
theorem State.LineSound.enterDial {s : State} (h : s.LineSound) (ho : s.call.state.onLine = true) :
    s.enterDial.LineSound := by
  have hdial : State.LineSound { s with call := { s.call with state := .dial } } :=
    h.proceed ho rfl ⟨rfl, rfl, rfl, rfl⟩ ⟨rfl, rfl, rfl⟩
  exact hdial.dialFrom rfl _

theorem State.LineSound.lineProved {s : State} (h : s.LineSound) : s.lineProved.LineSound := by
  unfold State.lineProved
  split
  · exact h.update _ (fun _ => rfl) fun _ => rfl
  · exact h

@[simp] theorem State.lineProved_call (s : State) : s.lineProved.call = s.call := by
  unfold State.lineProved
  split <;> rfl

@[simp] theorem beginSampling_call (s : State) : (beginSampling s).call = s.call := by rw [beginSampling_keeps]

/-- The law through the effect of every command. -/
theorem State.Effect.line_sound {s b u : State} {c : Instr} {e : Ending} (h : s.Effect c e b u) (hs : s.LineSound) :
    u.LineSound := by
  have carry : ∀ {t u : State}, s.SameLine t → t.CarryOnly u → u.LineSound := fun ht hu =>
    (ht.trans (.of_carryOnly hu)).sound hs
  have hheard : ∀ f acked, s.SameLine (s.heard f acked) := fun f acked => .of_same ⟨rfl, rfl, rfl, rfl⟩
  have hsound : ∀ {t : State}, s.SameLine t → t.LineSound := fun ht => ht.sound hs
  cases h with
  | idle | notBeforePasses | nextOfferTimePasses => exact hs
  | reset => exact State.LineSound.reset.same (.of_same ⟨rfl, rfl, rfl, rfl⟩)
  | releaseOfReset hr => 
    refine ⟨hs.idle, hs.idleReady, hs.own, hs.wired, hs.hook, hs.seize, hs.ready, hs.onLine, hs.release,
      fun _ => hs.unread (.inl hr), fun hn => (by cases hn.1)⟩
  | @configReadDone image hr =>
    have hloaded := hs.loadImage hr image
    exact hloaded.same (.of_same ⟨by simp, by simp, by simp [joinBus], by simp [joinBus]⟩)
  | linesLost => exact (hsound (s.linesTimed_sameLine _)).hangUp _
  | linesChanged => exact ((hsound (s.linesTimed_sameLine _)).watchLine s).same (State.refreshTrouble_sameLine _)
  | linesQuiet => exact hsound (s.linesSampled_sameLine _)
  | @deadTimerExpiry k =>
    have hdead := hs.update k (f := fun e => { e with dead := true, deadTimer := false }) (fun _ => rfl) fun _ => rfl
    have htimed : State.LineSound { s with
        view := (s.view.update k fun e => { e with dead := true, deadTimer := false }).timeAllDead } :=
      hdead.same (.of_same ⟨rfl, rfl, rfl, rfl⟩)
    exact htimed.same (State.refreshTrouble_sameLine _)
  | stationTimeTick => exact hsound s.drained_sameLine
  | peerIdleLimit | yieldWaitExpiry => exact hs.holderGone _
  | transmitError => exact (State.LineSound.afterError (by exact hsound (.of_same ⟨rfl, rfl, rfl, rfl⟩)) _ _).enterBusOff s
  | stuckEntry =>
    have hdropped : (State.dropReleases { s.endAttempt s.sendingUnacked with
        rbc := { (s.endAttempt s.sendingUnacked).rbc with
          stuck := true, receiving := false, dominantRun := 64, recessiveRun := 0, recovery := 0 } }).LineSound :=
      hsound (.of_same (by simp))
    dsimp only
    split
    · exact hdropped
    · exact hdropped.enterSolo
  | stuckExit => dsimp only; split <;> exact hsound (.of_same (by simp))
  | claimReceived => exact (hsound (hheard _ _)).takeClaim _
  | objectReceived => exact (hsound (hheard _ _)).takeObject _
  | releaseReceived => exact (hsound (hheard _ _)).takeRelease _
  | offerReceived => exact carry (hheard _ _) (State.takeOffer_carryOnly _ _)
  | acceptReceived => exact carry (hheard _ _) (State.takeAccept_carryOnly _ _)
  | carryReceived => exact carry (hheard _ _) (State.takeCarry_carryOnly _ _)
  | outcomeReceived => exact carry (hheard _ _) (State.takeOutcome_carryOnly _ _)
  | stateReceived => exact carry (hheard _ _) (State.takeState_carryOnly _ _)
  | sent => exact State.LineSound.concludeSending (by exact hsound (.of_same ⟨rfl, rfl, rfl, rfl⟩)) _
  | pendingGuardPasses => exact hs.update _ (fun e => e.passGuard_peerOnly.own) fun e => e.passGuard_peerOnly.wired
  | yieldLimitExpiry =>
    exact hs.update _ (fun e => e.passYieldLimit_peerOnly.own) fun e => e.passYieldLimit_peerOnly.wired
  | @ownGuardPasses k =>
    have hpassed := hs.update k (f := Entry.passOwnGuard) (fun _ => rfl) fun _ => rfl
    dsimp only
    split
    · exact hpassed.reportGuardDone
    · exact hpassed
  | offerWindowExpiry => exact carry (.refl s) (s.offerUnanswered_carryOnly _)
  | clockWarm | clockSteady => exact hs.clockReady
  | clockUnsteady hw => exact hs.of_clock (hs.warming hw.1).1 (hs.warming hw.1).2 _ id
  | clockEarly hw => exact hs.of_clock (hs.warming hw).1 (hs.warming hw).2 _ id
  | clockFailInClaim hw hc hk =>
    exact State.LineSound.abandonForClock (s := s.clockFailed) (hs.of_clock (hs.warming hw).1 (hs.warming hw).2 _ id) hc hk
  | clockFail hw => exact hs.of_clock (hs.warming hw).1 (hs.warming hw).2 _ id
  | clockRelease hr =>
    have hi := hs.release hr
    have hquiet := hs.of_clock (hs.idleReady hi) (by rw [hi]; rfl)
      { s.clock with state := .quiet, releaseTimer := false, steady := false } fun hn => by cases hn
    exact hquiet.same (.of_same ⟨rfl, rfl, rfl, rfl⟩)
  | clockReleaseIdle hr =>
    have hi := hs.release hr
    exact hs.of_clock (hs.idleReady hi) (by rw [hi]; rfl) _ fun hn => by cases hn
  | bargeClearingEnd hk ht => exact hs.closeHook (State.LineSound.onLine_of_timing ht rfl) hk
  | dialToneJudged ht =>
    have hseize := State.LineSound.onLine_of_timing (Bool.and_eq_true _ _ ▸ ht).1 rfl
    have hdialled := hs.lineProved.enterDial (by rw [State.lineProved_call]; exact hseize)
    exact hdialled.same (State.refreshTrouble_sameLine _)
  | dialToneWaitExpiry | handshakeWaitExpiry | kissoffFailed | lineLostTimerExpiry => exact hs.hangUp _
  | digitEnd ht => exact hs.dialFrom (State.LineSound.onLine_of_timing ht rfl) _
  | toneClassChange | toneGapLimit => exact hs.hear _ _
  | busyPeriodLimit | busyCadenceUnread => exact hsound (.of_same ⟨rfl, rfl, rfl, rfl⟩)
  | busyCadence => exact (hsound (t := s.cadenceReported) (.of_same ⟨rfl, rfl, rfl, rfl⟩)).hangUp _
  | handshakeJudged => exact hs.of_call ⟨rfl, rfl, rfl, rfl⟩ ⟨Iff.rfl, rfl⟩ ⟨rfl, rfl, rfl⟩
  | settleEnd _ ht | kissoffResend _ ht _ | betweenMessagesEnd _ ht =>
    exact hs.enterSend (State.LineSound.onLine_of_timing ht rfl) _
  | sendEnd ht => exact hs.proceed (State.LineSound.onLine_of_timing ht rfl) rfl ⟨rfl, rfl, rfl, rfl⟩ ⟨rfl, rfl, rfl⟩
  | kissoffJudged => exact (hs.deliverInHand _).afterDelivery
  | hangUpHoldEnd hk => exact hs.endHold hk
  | clash | unread => exact hsound (.of_same ⟨rfl, rfl, rfl, rfl⟩)
  | _ => exact hsound (.of_same (by simp))

/-- Settles O5. -/
theorem lineSoundKept : Obligations.LineSoundKept := by
  unfold Obligations.LineSoundKept
  intro s t hs ht
  rcases step_effect ht with rfl | ⟨c, rest, e, b, u, _, hu, rfl⟩
  · exact hs
  · exact (hu.line_sound (hs.same (.of_same ⟨rfl, rfl, rfl, rfl⟩))).close e b

end Sys2Proof.Machine

/-! ### The quiet of CONFIG_FAULT (R15, R144, R171)

With no record, no call, no offer and no acceptance each shared operation finds nothing to act on, so that every effect
but reset's leaves the quiet as it is. -/

namespace Sys2Proof.Machine

open Host

namespace State.FaultQuiet

variable {s t : State}

/-- What leaves the six things quiet leaves the quiet. -/
theorem same (h : s.FaultQuiet) (g : t.loader = s.loader ∧ t.queue.records = s.queue.records ∧ t.call = s.call ∧
    t.clock.state = s.clock.state ∧ t.carry.offer = s.carry.offer ∧ t.carry.accept = s.carry.accept) :
    t.FaultQuiet := by
  obtain ⟨hl, hr, hc, hk, ho, ha⟩ := g
  exact ⟨by rw [hl]; exact h.fault, by rw [hl]; exact h.released, hr.trans h.empty, hc.trans h.noCall,
    hk.trans h.quietClock, ho.trans h.noOffer, ha.trans h.noAccept⟩

theorem line (h : s.FaultQuiet) : s.call.line = none := by rw [h.noCall]; rfl

theorem idle (h : s.FaultQuiet) : s.call.state = .idle := by rw [h.noCall]; rfl

theorem timing (h : s.FaultQuiet) {state : CallState} {timer : CallTimer} : s.timing state timer = false := by
  simp [State.timing, h.noCall, CallEngine.idle]

/-! ### What the shared operations find -/

theorem raise (h : s.FaultQuiet) (e : Event) : s.raise e = s := by simp [State.raise, h.fault]

theorem raiseAll (h : s.FaultQuiet) (events : List Event) : s.raiseAll events = s := by
  unfold State.raiseAll
  induction events with
  | nil => rfl
  | cons e rest ih => rw [List.foldl_cons, h.raise]; exact ih

theorem refreshTrouble (h : s.FaultQuiet) : s.refreshTrouble.FaultQuiet := by
  have hflags : State.FaultQuiet { s with
      view := { s.view with entries := s.view.entries.mapLines fun _ e =>
                  { e with trouble := e.inTrouble s.loader.settings.lineThreshold } }
      free := if 2 ≤ s.troubleChanges.length then s.free + 4 else s.free } := h.same ⟨rfl, rfl, rfl, rfl, rfl, rfl⟩
  unfold State.refreshTrouble
  rw [hflags.raiseAll]
  exact hflags

theorem hangUp (h : s.FaultQuiet) (o : CallOutcome) : s.hangUp o = s := by rw [State.hangUp, h.line]

theorem reportGuardDone (h : s.FaultQuiet) : s.reportGuardDone = s := by simp [State.reportGuardDone, h.idle]

theorem endAccept (h : s.FaultQuiet) : s.endAccept = s := by rw [State.endAccept, h.noAccept]

theorem choose (h : s.FaultQuiet) : s.choose = s := by simp [State.choose, h.fault]

theorem findSeq (h : s.FaultQuiet) (seq : Byte) : s.queue.findSeq seq = none := by
  simp [AlertQueue.findSeq, h.empty]

theorem callInHand (h : s.FaultQuiet) : s.callInHand = none := by
  simp [State.callInHand, h.noCall, CallEngine.idle]

theorem makeOffer (h : s.FaultQuiet) : s.makeOffer = s := by
  simp [State.makeOffer, State.offerable, h.fault]

theorem enterSolo (h : s.FaultQuiet) : s.enterSolo.FaultQuiet := by
  have hidle : ({ s with zone := { s.zone with busTimer := true } } : State).claimIntoSolo =
      { s with zone := { s.zone with busTimer := true } } := by
    simp [State.claimIntoSolo, h.idle]
  rw [State.enterSolo, hidle]
  exact h.same ⟨rfl, rfl, rfl, rfl, rfl, rfl⟩

theorem leaveSolo (h : s.FaultQuiet) : s.leaveSolo.FaultQuiet := by
  have hstopped : State.FaultQuiet { s with zone := { s.zone with busTimer := false, busTrouble := false } } :=
    h.same ⟨rfl, rfl, rfl, rfl, rfl, rfl⟩
  unfold State.leaveSolo
  dsimp only
  split
  · rw [hstopped.raise]
    exact hstopped
  · exact hstopped

theorem enterBusOff (h : s.FaultQuiet) (before : State) : (before.enterBusOff s).FaultQuiet := by
  unfold State.enterBusOff
  split
  · have hdropped : (State.dropReleases { s with rbc := { s.rbc with recovery := 0 } }).FaultQuiet :=
      h.same ⟨rfl, rfl, rfl, rfl, rfl, rfl⟩
    dsimp only
    split
    · exact hdropped
    · exact hdropped.enterSolo
  · exact h

theorem holderGone (h : s.FaultQuiet) (k : LineId) : (s.holderGone k).FaultQuiet := by
  have hcleared : State.FaultQuiet { s with view := s.view.update k Entry.clearHolder } :=
    h.same ⟨rfl, rfl, rfl, rfl, rfl, rfl⟩
  unfold State.holderGone
  dsimp only
  split
  · rw [hcleared.reportGuardDone]
    exact hcleared
  · exact hcleared

theorem endAttempt (h : s.FaultQuiet) (unacked : Nat) : (s.endAttempt unacked).FaultQuiet := by
  unfold State.endAttempt
  split
  · exact h
  · split <;> exact h.same ⟨rfl, rfl, rfl, rfl, rfl, rfl⟩

theorem frameEnded (h : s.FaultQuiet) (t : Slot) : (s.frameEnded t).FaultQuiet := by
  unfold State.frameEnded
  split
  · simpa [State.claimEnded, h.idle] using h
  · exact h
  · exact h.same ⟨rfl, rfl, rfl, rfl, rfl, rfl⟩
  · simpa [State.offerEnded, h.noOffer] using h
  · exact h
  · simpa [State.carryEnded, h.noOffer] using h
  · exact h
  · exact h.same ⟨rfl, rfl, rfl, rfl, rfl, rfl⟩

theorem concludeSending (h : s.FaultQuiet) (t : Slot) : (s.concludeSending t).FaultQuiet :=
  frameEnded (by exact h.same ⟨rfl, rfl, rfl, rfl, rfl, rfl⟩) t

theorem afterError (h : s.FaultQuiet) (kind : ErrorKind) (t : Slot) : (s.afterError kind t).FaultQuiet := by
  unfold State.afterError
  split
  · split
    · exact h.concludeSending t
    · exact h.endAttempt _
  · exact h.endAttempt _

/-! ### Frames received -/

theorem dropBid (h : s.FaultQuiet) (origin : Nat) (seq : Byte) : s.dropBid origin seq = s := by
  simp [State.dropBid, h.endAccept]

theorem takeClaim (h : s.FaultQuiet) (f : ClaimFields) : (s.takeClaim f).FaultQuiet := by
  unfold State.takeClaim
  split
  · exact h
  · have hidle : s.defends = false := by simp [State.defends, h.idle]
    simp only [hidle, Bool.and_false, Bool.false_eq_true, if_false]
    exact h.same ⟨rfl, rfl, rfl, rfl, rfl, rfl⟩

theorem takeObject (h : s.FaultQuiet) (f : ClaimFields) : (s.takeObject f).FaultQuiet := by
  have hviewed : State.FaultQuiet { s with view := s.view.update f.line (Entry.observeObject f.addr f.key) } :=
    h.same ⟨rfl, rfl, rfl, rfl, rfl, rfl⟩
  unfold State.takeObject
  split
  · exact h
  · dsimp only
    split
    · simpa [State.takeObjection, h.idle] using hviewed
    · exact hviewed

theorem takeRelease (h : s.FaultQuiet) (f : ReleaseFields) : (s.takeRelease f).FaultQuiet := by
  unfold State.takeRelease
  split
  · exact h
  · split
    · exact h.holderGone _
    · exact h.same ⟨rfl, rfl, rfl, rfl, rfl, rfl⟩

theorem takeOffer (h : s.FaultQuiet) (f : OfferFields) : s.takeOffer f = s := by
  simp [State.takeOffer, State.eligible, h.fault]

theorem takeAccept (h : s.FaultQuiet) (f : AcceptFields) : s.takeAccept f = s := by
  simp [State.takeAccept, State.windowFor, h.noOffer, h.dropBid]

theorem takeCarry (h : s.FaultQuiet) (f : CarryFields) : s.takeCarry f = s := by
  simp [State.takeCarry, h.fault, h.dropBid]

theorem takeOutcome (h : s.FaultQuiet) (f : OutcomeFields) : s.takeOutcome f = s := by
  simp [State.takeOutcome, h.findSeq]

/-- Withdrawing frames leaves the outstanding offer and the accept-pending marker. -/
theorem cancel (h : s.FaultQuiet) (p : Marker → Bool) : (s.cancel p).FaultQuiet := by
  have hemptied : ∀ (l : List Slot) (c : CarryUnit), (l.foldl (fun c t => c.slotEmptied t.marker) c).offer = c.offer ∧
      (l.foldl (fun c t => c.slotEmptied t.marker) c).accept = c.accept := fun l => by
    induction l with
    | nil => exact fun c => ⟨rfl, rfl⟩
    | cons x rest ih => exact fun c => ih _
  exact h.same ⟨rfl, rfl, rfl, rfl, (hemptied _ s.carry).1, (hemptied _ s.carry).2⟩

theorem takeState (h : s.FaultQuiet) (f : StateFields) : (s.takeState f).FaultQuiet := by
  unfold State.takeState
  split
  · have horphaned : State.FaultQuiet { s with
        queue := { s.queue with records := s.queue.records.map (State.orphan f.sender) }
        carry := { s.carry with
          outcomes := s.carry.outcomes.filter fun e => decide (e.origin ≠ f.sender) || e.inSlot } } :=
      h.same ⟨rfl, by simp [h.empty], rfl, rfl, rfl, rfl⟩
    have hmarked := horphaned.cancel (Marker.answers f.sender)
    dsimp only
    split
    · next ha => exact absurd (hmarked.noAccept.symm.trans ha) (by simp)
    · exact hmarked
  · exact h

/-! ### Start-up and the end of a step -/

theorem loadImage (h : s.FaultQuiet) (image : BitVec 416) : (Machine.loadImage image s).FaultQuiet := by
  unfold Machine.loadImage
  split
  · exact ⟨h.fault, h.released, h.empty, h.noCall, h.quietClock, h.noOffer, h.noAccept⟩
  · exact ⟨rfl, h.released, h.empty, h.noCall, h.quietClock, h.noOffer, h.noAccept⟩

theorem joinBus (h : s.FaultQuiet) : (Machine.joinBus s).FaultQuiet := h.same ⟨rfl, rfl, rfl, rfl, rfl, rfl⟩

theorem beginSampling (h : s.FaultQuiet) : Machine.beginSampling s = s := by simp [Machine.beginSampling, h.fault]

theorem checkAccept (h : s.FaultQuiet) (before : State) : State.checkAccept before s = s := by
  simp [State.checkAccept, h.endAccept]

theorem chooseAndOffer (h : s.FaultQuiet) : s.chooseAndOffer = s := by
  have hnone : s.offerable = none := by simp [State.offerable, h.fault]
  have hfree : s.contested = false := by
    unfold State.contested
    split
    · next ho => exact absurd (hnone.symm.trans ho) (by simp)
    · rfl
  simp [State.chooseAndOffer, hfree, h.choose, h.makeOffer]

theorem afresh (h : s.FaultQuiet) (e : Ending) (before : State) : e.afresh before s = s := by
  cases e with
  | none => rfl
  | frames => rfl
  | choice => simp [Ending.afresh, h.checkAccept, h.choose]
  | full => simp [Ending.afresh, h.checkAccept, h.chooseAndOffer]

theorem loadOne (h : s.FaultQuiet) : s.loadOne.FaultQuiet := by
  unfold State.loadOne
  split
  · split
    · exact h
    · exact h.same ⟨rfl, rfl, rfl, rfl, rfl, rfl⟩
  · exact h

theorem close (h : s.FaultQuiet) (e : Ending) (before : State) : (e.close before s).FaultQuiet := by
  rcases e.close_eq before s with he | he <;> rw [he]
  · exact h
  · rw [h.afresh]
    have howed : ((State.noteReported before s).oweState).FaultQuiet := h.same (by simp)
    exact howed.loadOne.loadOne.loadOne

end State.FaultQuiet

/-- No effect but reset's ends the quiet. -/
theorem State.Effect.fault_quiet {s b u : State} {c : Instr} {e : Ending} (h : s.Effect c e b u) (hc : c ≠ .reset)
    (hs : s.FaultQuiet) : u.FaultQuiet := by
  have hheard : ∀ f acked, (s.heard f acked).FaultQuiet := fun f acked => hs.same ⟨rfl, rfl, rfl, rfl, rfl, rfl⟩
  have quiet : ∀ {state timer} {P : Prop}, s.timing state timer = true → P := fun ht =>
    absurd (hs.timing.symm.trans ht) (by decide)
  have noWarming : ∀ {P : Prop}, s.clock.state = .warming → P := fun hw =>
    absurd (hs.quietClock.symm.trans hw) (by decide)
  have noHand : ∀ {r : Record} {P : Prop}, s.callInHand = some r → P := fun hr =>
    absurd (hs.callInHand.symm.trans hr) (by simp)
  have noLine : ∀ {k : LineId} {P : Prop}, s.call.line = some k → P := fun hk =>
    absurd (hs.line.symm.trans hk) (by simp)
  cases h with
  | reset => exact absurd rfl hc
  | releaseOfReset hr => exact absurd (hs.released.symm.trans hr) (by decide)
  | configReadDone => rw [(hs.loadImage _).joinBus.beginSampling]; exact (hs.loadImage _).joinBus
  | zonesChanged =>
    rw [FaultQuiet.raiseAll (by exact hs.same ⟨rfl, rfl, rfl, rfl, rfl, rfl⟩)]
    exact hs.same ⟨rfl, rfl, rfl, rfl, rfl, rfl⟩
  | testTimerExpiry | busTroubleTimerExpiry =>
    rw [FaultQuiet.raise (by exact hs.same ⟨rfl, rfl, rfl, rfl, rfl, rfl⟩)]
    exact hs.same ⟨rfl, rfl, rfl, rfl, rfl, rfl⟩
  | linesLost =>
    rw [FaultQuiet.hangUp (by exact hs.same ⟨rfl, rfl, rfl, rfl, rfl, rfl⟩)]
    exact hs.same ⟨rfl, rfl, rfl, rfl, rfl, rfl⟩
  | @linesChanged volts =>
    have hunheld : watchLine s (s.linesTimed volts) = s.linesTimed volts := by
      simp [watchLine, heldLineTurned, hs.line]
    rw [hunheld]
    exact FaultQuiet.refreshTrouble (by exact hs.same ⟨rfl, rfl, rfl, rfl, rfl, rfl⟩)
  | deadTimerExpiry => exact FaultQuiet.refreshTrouble (by exact hs.same ⟨rfl, rfl, rfl, rfl, rfl, rfl⟩)
  | peerIdleLimit | yieldWaitExpiry => exact hs.holderGone _
  | carryTimeout hr => exact absurd ((hs.findSeq _).symm.trans hr) (by simp)
  | transmitError => exact (FaultQuiet.afterError (by exact hs.same ⟨rfl, rfl, rfl, rfl, rfl, rfl⟩) _ _).enterBusOff s
  | stuckEntry =>
    have hdropped : (State.dropReleases { s.endAttempt s.sendingUnacked with
        rbc := { (s.endAttempt s.sendingUnacked).rbc with
          stuck := true, receiving := false, dominantRun := 64, recessiveRun := 0, recovery := 0 } }).FaultQuiet :=
      (hs.endAttempt _).same ⟨rfl, rfl, rfl, rfl, rfl, rfl⟩
    dsimp only
    split
    · exact hdropped
    · exact hdropped.enterSolo
  | stuckExit =>
    dsimp only
    split
    · exact hs.same ⟨rfl, rfl, rfl, rfl, rfl, rfl⟩
    · exact FaultQuiet.leaveSolo (by exact hs.same ⟨rfl, rfl, rfl, rfl, rfl, rfl⟩)
  | busOffRecovery => exact FaultQuiet.leaveSolo (by exact hs.same ⟨rfl, rfl, rfl, rfl, rfl, rfl⟩)
  | claimReceived => exact (hheard _ _).takeClaim _
  | objectReceived => exact (hheard _ _).takeObject _
  | releaseReceived => exact (hheard _ _).takeRelease _
  | offerReceived => rw [(hheard _ _).takeOffer]; exact hheard _ _
  | acceptReceived => rw [(hheard _ _).takeAccept]; exact hheard _ _
  | carryReceived => rw [(hheard _ _).takeCarry]; exact hheard _ _
  | outcomeReceived => rw [(hheard _ _).takeOutcome]; exact hheard _ _
  | stateReceived => exact (hheard _ _).takeState _
  | sent => exact FaultQuiet.concludeSending (by exact hs.same ⟨rfl, rfl, rfl, rfl, rfl, rfl⟩) _
  | @ownGuardPasses k =>
    have hpassed : State.FaultQuiet { s with view := s.view.update k Entry.passOwnGuard } :=
      hs.same ⟨rfl, rfl, rfl, rfl, rfl, rfl⟩
    dsimp only
    split
    · rw [hpassed.reportGuardDone]
      exact hpassed
    · exact hpassed
  | offerWindowExpiry ho => exact absurd (hs.noOffer.symm.trans ho) (by simp)
  | acceptPendingTimeout => rw [hs.endAccept]; exact hs
  | clockWarm hw | clockUnsteady hw => exact noWarming hw.1
  | clockSteady hw | clockEarly hw | clockFailInClaim hw | clockFail hw => exact noWarming hw
  | clockRelease _ ha => exact absurd (hs.quietClock.symm.trans ha) (by decide)
  | bargeClearingEnd hk | hangUpHoldEnd hk => exact noLine hk
  | dialToneWaitExpiry ht | handshakeWaitExpiry ht | sendEnd ht | digitEnd ht => exact quiet ht
  | dialToneJudged ht | handshakeJudged ht => exact quiet (Bool.and_eq_true _ _ ▸ ht).1
  | toneClassChange | toneGapLimit =>
    unfold State.hear
    split <;> exact hs.same ⟨rfl, rfl, rfl, rfl, rfl, rfl⟩
  | busyCadence _ hw => exact quiet hw
  | settleEnd hr | kissoffJudged hr | kissoffResend hr | kissoffFailed hr | betweenMessagesEnd hr => exact noHand hr
  | lineLostTimerExpiry => rw [hs.hangUp]; exact hs
  | arbitrationLost => exact (hs.endAttempt _).same ⟨rfl, rfl, rfl, rfl, rfl, rfl⟩
  | _ => first | exact hs | exact hs.same ⟨rfl, rfl, rfl, rfl, rfl, rfl⟩

/-- Settles O8: no effect but reset's ends the quiet, and the end of the step finds nothing to do in it. -/
theorem faultQuietKept : Obligations.FaultQuietKept := by
  unfold Obligations.FaultQuietKept
  intro c s t hs hc h
  obtain ⟨e, b, u, rfl, hu⟩ := exec_effect h
  exact (hu.fault_quiet hc hs).close e b

end Sys2Proof.Machine

/-! ### The invariants at reset, the law they give, and the terminals -/

namespace Sys2Proof.Machine

open Host

/-- Settles O6. -/
theorem soundAtReset : Obligations.SoundAtReset := by
  unfold Obligations.SoundAtReset
  exact ⟨AlertQueue.Sound.reset, Rbc.Sound.reset, State.LineSound.reset⟩

theorem anyLine_eq_false {f : Four Bool} (h : ∀ k, f.get k = false) : anyLine f = false := by
  have h0 := h .l0; have h1 := h .l1; have h2 := h .l2; have h3 := h .l3
  simp only [Four.get] at h0 h1 h2 h3
  simp [anyLine, h0, h1, h2, h3]

theorem State.LineSound.hookLaw {s : State} (h : s.LineSound) : s.HookLaw where
  one j k hj hk := Option.some.inj ((h.hook j hj).1.symm.trans (h.hook k hk).1)
  own k hk := by
    have hline := (h.hook k hk).1
    simp [Entry.derived, h.wired k hline, (h.own k).mpr hline]
  clock k hk := h.onLine (h.hook k hk).2

/-- Settles O7: a driven line is the call's, so there is one, and its entry is this station's own. -/
theorem lineSoundGivesHookLaw : Obligations.LineSoundGivesHookLaw := by
  unfold Obligations.LineSoundGivesHookLaw
  intro s h
  refine ⟨h.hookLaw, fun hi => anyLine_eq_false fun k => (h.undriven (by rw [hi]; rfl) k).1,
    fun j hj => (h.seize j hj).1, fun j k hj hk => ?_⟩
  exact Option.some.inj ((h.seize j hj).1.symm.trans (h.hook k hk).1)

theorem exec_reset (s : State) : exec .reset s = .next { State.reset with free := s.free, pending := s.pending } := rfl

/-- Settles O16. -/
theorem resetAndReleaseComplete : Obligations.ResetAndReleaseComplete := by
  unfold Obligations.ResetAndReleaseComplete
  refine ⟨fun s => rfl, fun s t h => ?_, fun straps s hr => ?_⟩
  · rw [exec_reset] at h
    obtain rfl := Outcome.next.inj h
    refine ⟨fun read => ?_, fun loops => rfl, fun volts => rfl⟩
    rfl
  · have hzero : decide (straps.toNat = 0) = decide (straps = 0) := by simp [← BitVec.toNat_inj]
    refine ⟨_, ?_, State.settleFrames_framesOnly s _⟩
    simp only [exec, execReleaseOfReset, hr, if_true, hzero]

/-! ### Zones that are not in use (R1, R8) -/

theorem zoneAfter_unused {loops : Eight LoopMeasure} {s : State} {n : ZoneId}
    (h : (s.loader.settings.zones.get n).inUse = false) : zoneAfter loops s n = s.zone.zones.get n := by
  simp [zoneAfter, h]

theorem zoneEvents_self (n : ZoneId) (settings : ZoneSettings) (z : Zone) : zoneEvents n settings z z = [] := by
  simp [zoneEvents]

theorem zoneEvents_source {n : ZoneId} {settings : ZoneSettings} {old new : Zone} {e : Event}
    (h : e ∈ zoneEvents n settings old new) : e.source = n.number := by
  simp only [zoneEvents, List.mem_append] at h
  rcases h with ((h | h) | h) | h <;> split at h <;> simp at h <;> rw [h]

/-- An event of a pass is of a zone in use (R1). -/
theorem passEvents_inUse {loops : Eight LoopMeasure} {s : State} {e : Event} (h : e ∈ passEvents loops s) :
    ∃ n : ZoneId, (s.loader.settings.zones.get n).inUse = true ∧ e.source = n.number := by
  simp only [passEvents, List.mem_flatten, List.mem_map] at h
  obtain ⟨_, ⟨n, -, rfl⟩, he⟩ := h
  refine ⟨n, ?_, zoneEvents_source he⟩
  by_contra hn
  rw [zoneAfter_unused (by simpa using hn), zoneEvents_self] at he
  cases he

/-- What stands at the terminal of a zone not in use does not enter a pass. -/
theorem zoneAfter_congr {loops loops' : Eight LoopMeasure} {s : State}
    (h : ∀ n, (s.loader.settings.zones.get n).inUse = true → loops.get n = loops'.get n) :
    zoneAfter loops s = zoneAfter loops' s := by
  funext n
  unfold zoneAfter
  split
  · next hn => rw [h n hn]
  · rfl

theorem State.ZonesSound.reset : State.reset.ZonesSound where
  phases := by decide
  sampling := by decide
  unsampled _ n := by cases n <;> rfl
  unused n _ := by cases n <;> rfl

/-- What leaves the loader, the zones and the sampling leaves the zones not in use alone. -/
theorem State.ZonesSound.same {s t : State} (h : s.ZonesSound) (hl : t.loader = s.loader)
    (hz : t.zone.zones = s.zone.zones) (hs : t.zone.sampling = s.zone.sampling) : t.ZonesSound where
  phases := by rw [hl]; exact h.phases
  sampling hn := by rw [hl]; exact h.sampling (hs ▸ hn)
  unsampled hn n := by rw [hz]; exact h.unsampled (hs ▸ hn) n
  unused n hn := by rw [hz]; exact h.unused n (hl ▸ hn)

theorem State.ZonesSound.zonesSampled {s : State} (h : s.ZonesSound) (hs : s.zone.sampling = true)
    (loops : Eight LoopMeasure) :
    State.ZonesSound { s with zone := { s.zone with zones := Eight.ofZone (zoneAfter loops s) } } where
  phases := h.phases
  sampling := h.sampling
  unsampled hn := absurd (hs.symm.trans hn) (by decide)
  unused n hn := by
    exact (Eight.get_ofZone _ n).trans ((zoneAfter_unused (s := s) hn).trans (h.unused n hn))

@[simp] theorem loadImage_zone (image : BitVec 416) (s : State) : (loadImage image s).zone = s.zone := by
  unfold loadImage
  split <;> rfl

theorem loadImage_reading (image : BitVec 416) (s : State) : (loadImage image s).loader.reading = false := by
  unfold loadImage
  split <;> rfl

@[simp] theorem loadImage_inReset (image : BitVec 416) (s : State) :
    (loadImage image s).loader.inReset = s.loader.inReset := by
  unfold loadImage
  split <;> rfl

/-- The read ends with every zone as reset left it (R8, R170). -/
theorem State.ZonesSound.configRead {s : State} (h : s.ZonesSound) (hr : s.loader.reading = true)
    (image : BitVec 416) : (beginSampling (joinBus (loadImage image s))).ZonesSound := by
  have hsampling : s.zone.sampling = false := by
    rw [Bool.eq_false_iff]
    intro hn
    exact absurd (hr.symm.trans (h.sampling hn).2) (by decide)
  have hinReset : s.loader.inReset = false := Bool.eq_false_iff.mpr fun hn => h.phases ⟨hn, hr⟩
  have hzones := h.unsampled hsampling
  have hread := loadImage_reading image s
  have hkept : ∀ n, (beginSampling (joinBus (loadImage image s))).zone.zones.get n = Zone.reset := fun n => by
    unfold beginSampling
    split
    · simpa [joinBus] using hzones n
    · simpa [joinBus] using hzones n
  refine ⟨?_, fun _ => ?_, fun _ => hkept, fun n _ => hkept n⟩
  · simp [hread]
  · simp [hread, hinReset]

/-- No effect touches a zone that is not in use. -/
theorem State.Effect.zones_sound {s b u : State} {c : Instr} {e : Ending} (h : s.Effect c e b u) (hs : s.ZonesSound) :
    u.ZonesSound := by
  cases hm : movesBase c with
  | false =>
    have hk := h.keeps hm
    exact hs.same hk.loader hk.zones hk.sampling
  | true =>
    cases h with
    | idle => exact hs
    | reset => exact State.ZonesSound.reset.same rfl rfl rfl
    | releaseOfReset hr =>
      have hsampling : s.zone.sampling = false := by
        rw [Bool.eq_false_iff]
        intro hn
        exact absurd (hr.symm.trans (hs.sampling hn).1) (by decide)
      exact ⟨by simp, fun hn => absurd (hsampling.symm.trans hn) (by decide), hs.unsampled, hs.unused⟩
    | configReadDone hr => exact hs.configRead hr _
    | zonesQuiet hz => exact hs.zonesSampled hz _
    | @zonesChanged loops hz => exact (hs.zonesSampled hz loops).same (by simp) (by simp) (by simp)
    | stationTimeTick => exact hs.same rfl rfl rfl
    | sent hsent => exact absurd hm (by simp [sentType_movesBase hsent])
    | clash hreceipt | unread hreceipt => exact hs.same rfl rfl rfl
    | _ => cases hm

/-- The settings hold from the end of the read to the next reset (R169). -/
theorem State.Effect.settings {s b u : State} {c : Instr} {e : Ending} (h : s.Effect c e b u) (hc : c ≠ .reset)
    (hr : s.loader.reading = false) : u.loader.settings = s.loader.settings := by
  cases hm : movesBase c with
  | false => rw [(h.keeps hm).loader]
  | true =>
    cases h with
    | idle | releaseOfReset | zonesQuiet | stationTimeTick => rfl
    | reset => exact absurd rfl hc
    | configReadDone hn => exact absurd (hr.symm.trans hn) (by decide)
    | zonesChanged => simp
    | sent hsent => exact absurd hm (by simp [sentType_movesBase hsent])
    | clash hreceipt | unread hreceipt => rfl
    | _ => cases hm

/-- Settles O19. -/
theorem unusedZonesHaveNoEffect : Obligations.UnusedZonesHaveNoEffect := by
  unfold Obligations.UnusedZonesHaveNoEffect
  refine ⟨.reset, fun s t hs ht => ?_, fun loops loops' s hl => ?_, fun loops s e he => passEvents_inUse he,
    fun c s t hc hr h => ?_⟩
  · rcases step_effect ht with rfl | ⟨c, rest, e, b, u, _, hu, rfl⟩
    · exact hs
    · have hu := hu.zones_sound (hs.same rfl rfl rfl)
      have hclosed := e.close_settled b u
      exact hu.same hclosed.loader (by rw [hclosed.zone]) (by rw [hclosed.zone])
  · have hafter := zoneAfter_congr hl
    have hpass : passEvents loops s = passEvents loops' s := by simp only [passEvents, hafter]
    simp only [exec, execZoneSamplePass, hafter, hpass]
  · obtain ⟨e, b, u, rfl, hu⟩ := exec_effect h
    rw [(e.close_settled b u).loader]
    exact hu.settings hc hr

end Sys2Proof.Machine

/-! ### The loading of the slots (R91, R92) -/

namespace Sys2Proof.Machine

open Host

/-- The arbitration field orders by type code, then by value (R80, Table 11-1). -/
theorem Frame.arbitration_lt {f g : Frame} : f.arbitration < g.arbitration ↔
    f.type.code < g.type.code ∨ f.type.code = g.type.code ∧ f.value.toNat < g.value.toNat := by
  have hf := f.value.isLt
  have hg := g.value.isLt
  simp only [Frame.arbitration]
  omega

theorem lowestFrame_eq_none {l : List (Marker × Frame)} : State.lowestFrame l = none ↔ l = [] := by
  cases l with
  | nil => simp [State.lowestFrame]
  | cons x rest =>
    simp only [State.lowestFrame, reduceCtorEq, iff_false]
    split
    · simp
    · split <;> simp

/-- The first of the lowest frames is taken (R92). -/
theorem lowestFrame_append {x : Marker × Frame} {before after : List (Marker × Frame)}
    (hb : ∀ y ∈ before, x.2.arbitration < y.2.arbitration) (ha : ∀ y ∈ after, x.2.arbitration ≤ y.2.arbitration) :
    State.lowestFrame (before ++ x :: after) = some x := by
  induction before with
  | nil =>
    simp only [List.nil_append, State.lowestFrame]
    split
    · rfl
    · next m hm => rw [if_neg (Nat.not_lt.mpr (ha m (lowestFrame_mem hm)))]
  | cons y rest ih =>
    have hrest := ih fun z hz => hb z (List.mem_cons_of_mem _ hz)
    simp only [List.cons_append, State.lowestFrame, hrest]
    rw [if_pos (hb y List.mem_cons_self)]

/-- One loading fills a slot, or finds none to fill or nothing to fill it with. -/
theorem State.loadOne_cases (s : State) :
    (s.loadOne = s ∧ s.SlotsFilled) ∨ s.loadOne.rbc.slots.length = s.rbc.slots.length + 1 := by
  unfold State.loadOne
  split
  · split
    · next hn => exact .inl ⟨rfl, .inr (lowestFrame_eq_none.mp hn)⟩
    · exact .inr (by simp [State.putInSlot])
  · next hn => exact .inl ⟨rfl, .inl (Nat.not_lt.mp hn)⟩

/-- Three loadings leave no slot empty for a frame that waits. -/
theorem State.loadSlots_filled (s : State) : s.loadSlots.SlotsFilled := by
  have hkeep : ∀ a : State, a.loadOne = a → a.SlotsFilled → a.loadOne.SlotsFilled := fun a ha hf => ha.symm ▸ hf
  unfold State.loadSlots
  rcases s.loadOne_cases with ⟨h1, hf⟩ | h1
  · rw [h1, h1, h1]; exact hf
  · rcases s.loadOne.loadOne_cases with ⟨h2, hf⟩ | h2
    · rw [h2, h2]; exact hf
    · rcases s.loadOne.loadOne.loadOne_cases with ⟨h3, hf⟩ | h3
      · rw [h3]; exact hf
      · exact .inl (by omega)

/-- What an effect that closes no step leaves: the markers owed and in slots, and what a frame or an indication is made
from. -/
structure State.Quiet (s t : State) : Prop where
  slots : t.rbc.slots.map Slot.marker = s.rbc.slots.map Slot.marker
  owed : t.rbc.owed = s.rbc.owed
  carry : t.carry = s.carry
  queue : t.queue = s.queue
  loader : t.loader = s.loader
  ind : t.ind = s.ind
  latch : t.clock.latch = s.clock.latch
  busTrouble : t.zone.busTrouble = s.zone.busTrouble
  ownKey k : (t.entry k).ownKey = (s.entry k).ownKey
  wired k : (t.entry k).wired = (s.entry k).wired
  trouble k : (t.entry k).trouble = (s.entry k).trouble
  dead k : (t.entry k).dead = (s.entry k).dead

namespace State.Quiet

variable {s t : State}

/-- The same, with the blocks themselves as they were. -/
theorem of_same (hr : t.rbc.slots = s.rbc.slots ∧ t.rbc.owed = s.rbc.owed)
    (h : t.carry = s.carry ∧ t.queue = s.queue ∧ t.loader = s.loader ∧ t.ind = s.ind)
    (hz : t.clock.latch = s.clock.latch ∧ t.zone.busTrouble = s.zone.busTrouble) (hv : t.view = s.view) :
    s.Quiet t := by
  obtain ⟨hcarry, hqueue, hloader, hind⟩ := h
  have he : ∀ k, t.entry k = s.entry k := fun k => congrArg (LineView.get · k) hv
  exact ⟨by rw [hr.1], hr.2, hcarry, hqueue, hloader, hind, hz.1, hz.2, fun k => by rw [he], fun k => by rw [he],
    fun k => by rw [he], fun k => by rw [he]⟩

/-- What may be loaded rests on the markers owed and in slots, the outcome list, the own keys and the queue (R91, R92). -/
theorem slotsFilled (h : s.Quiet t) (hs : s.SlotsFilled) : t.SlotsFilled := by
  have hrelease : ∀ k, t.releaseInSlot k = s.releaseInSlot k := fun k => by
    have hany : ∀ u : State, u.releaseInSlot k = (u.rbc.slots.map Slot.marker).any (Marker.releases k) := fun u => by
      rw [State.releaseInSlot, List.any_map]
      rfl
    rw [hany, hany, h.slots]
  have hcompose : ∀ m, t.compose m = none ↔ s.compose m = none := fun m => by
    cases m with
    | object k => simp [State.compose, h.ownKey]
    | release k reason => simp [State.compose, hrelease]
    | carry seq acceptor => simp [State.compose, h.queue]
    | claim | offer | accept | outcome | state => simp [State.compose]
  refine hs.imp (fun hl => ?_) fun hl => ?_
  · have := congrArg List.length h.slots
    simp only [List.length_map] at this
    exact this.symm ▸ hl
  · simp only [State.loadable, List.filterMap_eq_nil_iff, Option.map_eq_none_iff] at hl ⊢
    rw [h.owed, show t.outcomeMarkers = s.outcomeMarkers by simp [State.outcomeMarkers, h.carry]]
    exact fun m hm => (hcompose m).mpr (hl m hm)

end State.Quiet

/-- A sample that changes no sense changes the band and its run alone (R56). -/
theorem Entry.sample_of_sense {b : LineBand} {e : Entry} (h : (e.sample b).sense = e.sense) :
    e.sample b = { e with band := some b, run := e.runAfter b } := by
  unfold Entry.sample at h ⊢
  dsimp only at h ⊢
  split
  · next hc =>
    rw [if_pos hc] at h
    exact absurd h.symm hc.2
  · rfl

/-- A pass that changes no sense is quiet. -/
theorem State.linesSampled_quiet {s : State} {volts : Four Int}
    (hn : ¬ senseChanged s.view.entries (sampledEntries volts s) = true) : s.Quiet (s.linesSampled volts) := by
  have hentry : ∀ k, (s.linesSampled volts).entry k = s.entry k ∨
      (s.linesSampled volts).entry k = { s.entry k with
        band := some (lineBand (volts.get k)), run := (s.entry k).runAfter (lineBand (volts.get k)) } := fun k => by
    have hsame : ((s.linesSampled volts).entry k).sense = (s.entry k).sense := by
      by_contra hne
      exact hn (List.any_eq_true.mpr ⟨k, by cases k <;> decide, decide_eq_true (Ne.symm hne)⟩)
    have hget : (s.linesSampled volts).entry k =
        if (s.entry k).wired then (s.entry k).sample (lineBand (volts.get k)) else s.entry k :=
      Four.get_mapLines _ _ k
    rw [hget] at hsame ⊢
    split
    · next hw =>
      rw [if_pos hw] at hsame
      exact .inr (Entry.sample_of_sense hsame)
    · exact .inl rfl
  constructor <;> first | rfl | (intro k; rcases hentry k with h | h <;> rw [h])

theorem Rbc.startSending_markers (t : Slot) (b : Rbc) :
    (b.startSending t).slots.map Slot.marker = b.slots.map Slot.marker := by
  have : ∀ l : List Slot, (Rbc.changeFirst (fun s => { s with sending := true }) t l).map Slot.marker =
      l.map Slot.marker := fun l => by
    induction l with
    | nil => rfl
    | cons x rest ih =>
      simp only [Rbc.changeFirst]
      split
      · rfl
      · rw [List.map_cons, ih, List.map_cons]
  exact this b.slots

/-- The bits read leave the slots and what is owed. -/
theorem Rbc.readBits_frames (read : List Bool) (b : Rbc) :
    (b.readBits read).slots = b.slots ∧ (b.readBits read).owed = b.owed := by
  obtain ⟨r, d, v, h⟩ := Rbc.readBits_frame read b
  rw [h]
  exact ⟨rfl, rfl⟩

/-- A command whose step is not closed is quiet, but for reset. -/
theorem State.Effect.quiet {s b u : State} {c : Instr} (h : s.Effect c .none b u) (hc : c ≠ .reset) : s.Quiet u := by
  have plain : ∀ {t : State}, t.rbc.slots = s.rbc.slots ∧ t.rbc.owed = s.rbc.owed → t.carry = s.carry ∧
      t.queue = s.queue ∧ t.loader = s.loader ∧ t.ind = s.ind → t.clock.latch = s.clock.latch ∧
      t.zone.busTrouble = s.zone.busTrouble → t.view = s.view → s.Quiet t := fun h g l v => .of_same h g l v
  cases h with
  | reset => exact absurd rfl hc
  | idle => exact plain ⟨rfl, rfl⟩ ⟨rfl, rfl, rfl, rfl⟩ ⟨rfl, rfl⟩ rfl
  | linesQuiet _ hn => exact State.linesSampled_quiet hn
  | busIdle => exact plain (Rbc.readBits_frames _ _) ⟨rfl, rfl, rfl, rfl⟩ ⟨rfl, rfl⟩ rfl
  | @frameStart start t =>
    have hbit := Rbc.readBits_frames [start] (s.rbc.startSending t)
    exact ⟨(congrArg _ hbit.1).trans (Rbc.startSending_markers t s.rbc), hbit.2, rfl, rfl, rfl, rfl, rfl, rfl,
      fun _ => rfl, fun _ => rfl, fun _ => rfl, fun _ => rfl⟩
  | receiveError =>
    refine plain ?_ ⟨rfl, rfl, rfl, rfl⟩ ⟨rfl, rfl⟩ rfl
    simp only [Rbc.raiseRx, Rbc.signalError]
    repeat' split
    all_goals simp [Rbc.readBits_frames]
  | unread =>
    refine plain ?_ ⟨rfl, rfl, rfl, rfl⟩ ⟨rfl, rfl⟩ rfl
    simp only [State.heard, Rbc.endReception, Rbc.lowerRx]
    split <;> exact ⟨rfl, rfl⟩
  | clockWarm | clockSteady =>
    exact plain (by simp [State.clockReady]) (by simp [State.clockReady]) (by simp [State.clockReady]) (by simp)
  | digitEnd =>
    unfold State.dialFrom
    split <;> exact plain ⟨rfl, rfl⟩ ⟨rfl, rfl, rfl, rfl⟩ ⟨rfl, rfl⟩ rfl
  | toneClassChange | toneGapLimit =>
    unfold State.hear
    split <;> exact plain ⟨rfl, rfl⟩ ⟨rfl, rfl, rfl, rfl⟩ ⟨rfl, rfl⟩ rfl
  | zonesQuiet | joinPeriodEnd | passiveSuspendEnd | startOfFrameReceived =>
    exact plain ⟨rfl, rfl⟩ ⟨rfl, rfl, rfl, rfl⟩ ⟨rfl, rfl⟩ rfl
  | clockUnsteady | clockEarly | clockRelease | clockReleaseIdle =>
    exact plain ⟨rfl, rfl⟩ ⟨rfl, rfl, rfl, rfl⟩ ⟨rfl, rfl⟩ rfl
  | settleEnd | kissoffResend | betweenMessagesEnd | bargeClearingEnd =>
    exact plain ⟨rfl, rfl⟩ ⟨rfl, rfl, rfl, rfl⟩ ⟨rfl, rfl⟩ rfl
  | busyPeriodLimit | busyCadenceUnread | handshakeJudged | sendEnd =>
    exact plain ⟨rfl, rfl⟩ ⟨rfl, rfl, rfl, rfl⟩ ⟨rfl, rfl⟩ rfl

/-- Reset's step is not closed either. -/
theorem State.Effect.eq_reset {s b u : State} {e : Ending} (h : s.Effect .reset e b u) :
    u = s ∨ u = { State.reset with free := s.free, pending := s.pending } := by
  cases h with
  | idle => exact .inl rfl
  | reset => exact .inr rfl
  | clash hc | unread hc => cases hc
  | sent hc => cases hc

theorem Ending.close_filled {e : Ending} (b u : State) (h : e ≠ .none) : (e.close b u).SlotsFilled := by
  have hclose : e.close b u = ((State.noteReported b (e.afresh b u)).oweState).loadSlots := by
    cases e with
    | none => exact absurd rfl h
    | frames => rfl
    | choice => rfl
    | full => rfl
  rw [hclose]
  exact State.loadSlots_filled _

/-- Settles O51: a step either ends with three loadings, or leaves all that they rest on. -/
theorem slotsLoadInOrder : Obligations.SlotsLoadInOrder := by
  unfold Obligations.SlotsLoadInOrder
  refine ⟨fun s m f before after hl hload hb ha => ?_, fun f g => Frame.arbitration_lt, .inr rfl, fun c s t hs h => ?_⟩
  · have hlow : State.lowestFrame s.loadable = some (m, f) := hload ▸ lowestFrame_append hb ha
    simp [State.loadOne, hl, hlow, State.putInSlot]
  · obtain ⟨e, b, u, rfl, hu⟩ := exec_effect h
    by_cases he : e = .none
    · subst he
      by_cases hc : c = .reset
      · subst hc
        rcases hu.eq_reset with hu | hu <;> rw [Ending.close, hu]
        · exact hs
        · exact .inr rfl
      · exact (hu.quiet hc).slotsFilled hs
    · exact Ending.close_filled b u he

end Sys2Proof.Machine

/-! ### The Indication Unit: the FAULT output, the STATE-owed flag and the STATE (R172, R175, R176) -/

namespace Sys2Proof.Machine

open Host

/-! The frames of the controller through its own operations on the wire. -/

theorem Rbc.signalError_frames (active : Bool) (echo : BitVec 8) (b : Rbc) :
    (b.signalError active echo).slots = b.slots ∧ (b.signalError active echo).owed = b.owed := by
  unfold Rbc.signalError
  split
  · exact Rbc.readBits_frames _ b
  · exact ⟨rfl, rfl⟩

theorem Rbc.countFailedAttempt_frames (kind : ErrorKind) (b : Rbc) :
    (b.countFailedAttempt kind).slots = b.slots ∧ (b.countFailedAttempt kind).owed = b.owed := by
  simp only [Rbc.countFailedAttempt, Rbc.raiseTxForAck]
  repeat' split
  all_goals exact ⟨rfl, rfl⟩

theorem Rbc.endReception_frames (f : Frame) (acked : Bool) (b : Rbc) :
    (b.endReception f acked).slots = b.slots ∧ (b.endReception f acked).owed = b.owed := by
  simp only [Rbc.endReception, Rbc.lowerRx]
  split <;> exact ⟨rfl, rfl⟩

theorem Rbc.failedAttempt_frames (kind : ErrorKind) (read : List Bool) (echo : BitVec 8) (b : Rbc) :
    ((b.readFailedAttempt read echo).countFailedAttempt kind).suspendIfPassive.slots = b.slots ∧
    ((b.readFailedAttempt read echo).countFailedAttempt kind).suspendIfPassive.owed = b.owed := by
  have hcount := Rbc.countFailedAttempt_frames kind (b.readFailedAttempt read echo)
  have hsignal := Rbc.signalError_frames (decide (b.confinement = .active)) echo (b.readBits read)
  have hread := Rbc.readBits_frames read b
  exact ⟨hcount.1.trans (hsignal.1.trans hread.1), hcount.2.trans (hsignal.2.trans hread.2)⟩

/-! ### No STATE is owed or put in a slot but at the end of a step -/

/-- No slot is filled, no STATE becomes owed, and the last contents and their flag stay. -/
structure State.NoNewState (s t : State) : Prop where
  slots : (t.rbc.slots.map Slot.marker).Sublist (s.rbc.slots.map Slot.marker)
  states : t.rbc.owed.count .state ≤ s.rbc.owed.count .state
  last : t.ind.last = s.ind.last
  owed : t.ind.stateOwed = s.ind.stateOwed

namespace State.NoNewState

variable {s t u : State}

theorem trans (h : s.NoNewState t) (g : t.NoNewState u) : s.NoNewState u :=
  ⟨g.slots.trans h.slots, g.states.trans h.states, g.last.trans h.last, g.owed.trans h.owed⟩

theorem of_frames (hr : t.rbc.slots = s.rbc.slots ∧ t.rbc.owed = s.rbc.owed)
    (hi : t.ind.last = s.ind.last ∧ t.ind.stateOwed = s.ind.stateOwed) : s.NoNewState t :=
  ⟨by rw [hr.1], by rw [hr.2], hi.1, hi.2⟩

/-- What follows a change of the run counts, the error counters or another block. -/
theorem after (g : t.NoNewState u) (hr : t.rbc.slots = s.rbc.slots ∧ t.rbc.owed = s.rbc.owed)
    (hi : t.ind.last = s.ind.last ∧ t.ind.stateOwed = s.ind.stateOwed) : s.NoNewState u := (of_frames hr hi).trans g

theorem heard (f : Frame) (acked : Bool) : s.NoNewState (s.heard f acked) :=
  of_frames (Rbc.endReception_frames f acked s.rbc) ⟨rfl, rfl⟩

end State.NoNewState

theorem State.KeepsBus.noNewState {s t : State} (h : s.KeepsBus t) : s.NoNewState t := ⟨h.slots, h.states, h.last, h.owed⟩

theorem State.Quiet.noNewState {s t : State} (h : s.Quiet t) : s.NoNewState t :=
  ⟨by rw [h.slots], by rw [h.owed], by rw [h.ind], by rw [h.ind]⟩

theorem State.leaveSolo_noNewState (s : State) : s.NoNewState s.leaveSolo := .of_frames (by simp) (by simp)

theorem State.dropReleases_into_solo (s : State) (p : Prop) [Decidable p] :
    s.NoNewState (if p then s.dropReleases else s.dropReleases.enterSolo) := by
  split
  · exact s.dropReleases_keepsBus.noNewState
  · exact (s.dropReleases_keepsBus.trans (State.enterSolo_keepsBus _)).noNewState

theorem State.enterBusOff_noNewState (before s : State) : s.NoNewState (before.enterBusOff s) := by
  unfold State.enterBusOff
  split
  · exact .after (State.dropReleases_into_solo _ _) ⟨rfl, rfl⟩ ⟨rfl, rfl⟩
  · exact (State.KeepsBus.refl s).noNewState

/-- No command but reset and the end of start-up writes the Indication Unit's flag or fills a slot itself. -/
theorem State.Effect.noNewState {s b u : State} {c : Instr} {e : Ending} (h : s.Effect c e b u) (hc : c ≠ .reset)
    (hi : ∀ image, c ≠ .configReadDone image) : s.NoNewState u := by
  by_cases he : e = .none
  · subst he
    exact (h.quiet hc).noNewState
  by_cases hm : movesWire c = false
  · exact (h.keepsBus hm).noNewState
  cases h with
  | configReadDone => exact absurd rfl (hi _)
  | transmitError =>
    refine State.NoNewState.trans ?_ (State.enterBusOff_noNewState _ _)
    exact .after (State.afterError_keepsBus _ _ _).noNewState (Rbc.failedAttempt_frames _ _ _ _) ⟨rfl, rfl⟩
  | stuckEntry =>
    refine (s.endAttempt_keepsBus s.sendingUnacked).noNewState.trans ?_
    exact .after (State.dropReleases_into_solo _ _) ⟨rfl, rfl⟩ ⟨rfl, rfl⟩
  | stuckExit =>
    dsimp only
    split
    · exact .of_frames ⟨rfl, rfl⟩ ⟨rfl, rfl⟩
    · exact .after (State.leaveSolo_noNewState _) ⟨rfl, rfl⟩ ⟨rfl, rfl⟩
  | busOffRecovery =>
    exact .after (State.leaveSolo_noNewState _) (Rbc.readBits_frames _ _) ⟨rfl, rfl⟩
  | @arbitrationLost read t =>
    refine (s.endAttempt_keepsBus t.unacked).noNewState.trans ?_
    exact .of_frames (Rbc.readBits_frames _ _) ⟨rfl, rfl⟩
  | clash => exact (State.NoNewState.heard _ _).trans (.of_frames ⟨rfl, rfl⟩ ⟨rfl, rfl⟩)
  | sent => exact .after (State.concludeSending_keepsBus _ _).noNewState ⟨rfl, rfl⟩ ⟨rfl, rfl⟩
  | claimReceived => exact (State.NoNewState.heard _ _).trans (State.takeClaim_keepsBus _ _).noNewState
  | objectReceived => exact (State.NoNewState.heard _ _).trans (State.takeObject_keepsBus _ _).noNewState
  | releaseReceived => exact (State.NoNewState.heard _ _).trans (State.takeRelease_keepsBus _ _).noNewState
  | offerReceived => exact (State.NoNewState.heard _ _).trans (State.takeOffer_keepsBus _ _).noNewState
  | acceptReceived => exact (State.NoNewState.heard _ _).trans (State.takeAccept_keepsBus _ _).noNewState
  | carryReceived => exact (State.NoNewState.heard _ _).trans (State.takeCarry_keepsBus _ _).noNewState
  | outcomeReceived => exact (State.NoNewState.heard _ _).trans (State.takeOutcome_keepsBus _ _).noNewState
  | stateReceived => exact (State.NoNewState.heard _ _).trans (State.takeState_keepsBus _ _).noNewState
  | idle | reset | linesQuiet | zonesQuiet => exact absurd rfl he
  | _ => first | exact absurd rfl he | exact absurd rfl hm

/-- The reported items that the end of a step compares with are those before the command. -/
theorem State.Effect.reported_before {s b u : State} {c : Instr} {e : Ending} (h : s.Effect c e b u) :
    b.reported = s.reported := by
  cases h <;> rfl

/-! ### The flag and the marker through the end of a step -/

theorem noteReported_flag {before s : State} (h : ∀ l, s.ind.last = some l → (s.ind.stateOwed = true ↔ before.reported ≠ l)) :
    ∀ l, (State.noteReported before s).ind.last = some l →
      ((State.noteReported before s).ind.stateOwed = true ↔ (State.noteReported before s).reported ≠ l) := by
  unfold State.noteReported
  split
  · next hr => rw [hr]; exact h
  · intro l hl
    change s.ind.last = some l at hl
    change decide (s.ind.last ≠ some s.reported) = true ↔ s.reported ≠ l
    rw [hl, decide_eq_true_iff]
    simp [eq_comm]

theorem State.oweState_indSound {s : State} (hflag : ∀ l, s.ind.last = some l → (s.ind.stateOwed = true ↔ s.reported ≠ l))
    (hcount : s.rbc.owed.count .state ≤ 1) : s.oweState.IndSound := by
  unfold State.oweState
  split
  · next ho =>
    split
    · next hmay =>
      simp only [Bool.and_eq_true, Bool.not_eq_true'] at hmay
      refine ⟨hflag, fun _ _ _ => owes_owe_self _ _, ?_⟩
      have hnot : Marker.state ∉ s.rbc.owed := fun hm => by
        rw [(owes_iff _ _).mpr (.inl hm)] at hmay
        exact absurd hmay.1.2 (by decide)
      change (s.rbc.owed ++ [Marker.state]).count .state ≤ if s.ind.stateOwed then 1 else 0
      rw [List.count_append, List.count_eq_zero_of_not_mem hnot, ho]
      decide
    · next hnot =>
      refine ⟨hflag, fun _ hs ha => ?_, by rw [ho]; exact hcount⟩
      by_contra hn
      exact hnot (by simp [hs, ha, hn])
  · next ho =>
    refine ⟨hflag, fun h => absurd h ho, ?_⟩
    have : Marker.state ∉ s.rbc.owed.filter fun m => !decide (m = .state) := by simp
    exact (List.count_eq_zero_of_not_mem this).le.trans (Nat.zero_le _)

theorem State.IndSound.putInSlot {s : State} (h : s.IndSound) (m : Marker) (f : Frame) : (s.putInSlot m f).IndSound := by
  have hreported : (s.putInSlot m f).reported = s.reported := by
    simp [State.reported, State.faults, State.putInSlot]
    split <;> rfl
  by_cases hm : m = .state
  · subst hm
    refine ⟨fun l hl => ?_, fun ho => absurd ho (by simp [State.putInSlot]), ?_⟩
    · rw [hreported]
      have : s.reported = l := by simpa [State.putInSlot] using hl
      simp [State.putInSlot, this]
    · have honce := h.once
      simp only [State.putInSlot, List.count_erase_self]
      split at honce <;> simp <;> omega
  · refine ⟨?_, fun ho hs ha => ?_, ?_⟩
    · rw [hreported]
      simpa [State.putInSlot, hm] using h.flag
    · exact owes_putInSlot (h.owed (by simpa [State.putInSlot, hm] using ho) (by simpa [State.putInSlot, hm] using hs) ha)
    · simpa [State.putInSlot, hm, List.count_erase_of_ne (Ne.symm hm)] using h.once

theorem State.IndSound.loadOne {s : State} (h : s.IndSound) : s.loadOne.IndSound := by
  unfold State.loadOne
  split
  · split
    · exact h
    · exact h.putInSlot _ _
  · exact h

theorem State.IndSound.loadSlots {s : State} (h : s.IndSound) : s.loadSlots.IndSound := h.loadOne.loadOne.loadOne

theorem State.Quiet.reported {s t : State} (h : s.Quiet t) : t.reported = s.reported := by
  have hsummary : t.view.summary = s.view.summary := Four.ext_get fun k => by
    have hk : (t.entry k).summary = (s.entry k).summary := by simp [Entry.summary, h.wired, h.dead, h.trouble]
    simpa [LineView.summary, State.entry, LineView.get] using hk
  have hline : ∀ k, ((t.entry k).wired && (t.entry k).trouble) = ((s.entry k).wired && (s.entry k).trouble) :=
    fun k => by rw [h.wired, h.trouble]
  have hfaults : t.faults = s.faults := by
    have h0 := hline .l0; have h1 := hline .l1; have h2 := hline .l2; have h3 := hline .l3
    simp only [State.entry, LineView.get, Four.get] at h0 h1 h2 h3
    simp [State.faults, Four.toList, h.loader, h.ind, h.latch, h.busTrouble, h.queue, h0, h1, h2, h3]
  rw [State.reported, hsummary, hfaults, h.queue]
  rfl

theorem State.Quiet.indSound {s t : State} (h : s.Quiet t) (hs : s.IndSound) : t.IndSound where
  flag := by rw [h.reported, h.ind]; exact hs.flag
  owed := by
    rw [h.ind, State.address, h.loader]
    intro ho hsp ha
    have := hs.owed ho hsp ha
    rw [owes_iff, h.owed]
    exact ((owes_iff _ _).mp this).imp id fun ⟨x, hx, hm⟩ => by
      have : Marker.state ∈ t.rbc.slots.map Slot.marker := h.slots ▸ List.mem_map.mpr ⟨x, hx, hm⟩
      simpa using this
  once := by rw [h.owed, h.ind]; exact hs.once

theorem State.reset_indSound (s : State) : ({ State.reset with free := s.free, pending := s.pending } : State).IndSound where
  flag _ h := by cases h
  owed h := by cases h
  once := Nat.le_refl _

theorem loadImage_joined_frames (image : BitVec 416) (s : State) :
    (beginSampling (joinBus (loadImage image s))).rbc.slots = s.rbc.slots ∧
    (beginSampling (joinBus (loadImage image s))).rbc.owed = s.rbc.owed ∧
    (beginSampling (joinBus (loadImage image s))).ind.last = s.ind.last := by
  rw [beginSampling_rbc, beginSampling_ind]
  refine ⟨by simp [joinBus], by simp [joinBus], ?_⟩
  simp only [joinBus, loadImage_ind]
  split <;> rfl

theorem Ending.close_of_ne {e : Ending} (b u : State) (h : e ≠ .none) :
    e.close b u = ((State.noteReported b (e.afresh b u)).oweState).loadSlots := by
  cases e with
  | none => exact absurd rfl h
  | frames => rfl
  | choice => rfl
  | full => rfl

/-- The end of a step keeps the flag by the last contents, and owes the STATE that may be. -/
theorem Ending.close_indSound {s b u : State} {e : Ending} (he : e ≠ Ending.none) (hs : s.IndSound)
    (hb : b.reported = s.reported) (hcount : u.rbc.owed.count .state ≤ s.rbc.owed.count .state)
    (hlast : u.ind.last = s.ind.last) (howed : s.ind.last = .none ∨ u.ind.stateOwed = s.ind.stateOwed) :
    (e.close b u).IndSound := by
  have hv := e.afresh_keepsBus b u
  have honce : s.rbc.owed.count .state ≤ 1 := by
    have := hs.once
    split at this <;> omega
  rw [e.close_of_ne b u he]
  refine State.IndSound.loadSlots (State.oweState_indSound (noteReported_flag fun l hl => ?_) ?_)
  · rw [hv.last, hlast] at hl
    rcases howed with hnone | howed
    · rw [hnone] at hl; cases hl
    · rw [hv.owed, howed, hb]
      exact hs.flag l hl
  · rw [State.noteReported_rbc]
    exact (hv.states.trans hcount).trans honce

theorem State.Effect.indSound {s b u : State} {c : Instr} {e : Ending} (h : s.Effect c e b u) (hs : s.IndSound)
    (hi : ∀ image, c = .configReadDone image → s.ind.last = none) : (e.close b u).IndSound := by
  by_cases hc : c = .reset
  · subst hc
    cases h with
    | idle => exact hs
    | reset => exact State.reset_indSound s
    | clash hc | unread hc => cases hc
    | sent hc => cases hc
  by_cases he : e = .none
  · subst he
    exact (h.quiet hc).indSound hs
  have hb := h.reported_before
  by_cases him : ∃ image, c = .configReadDone image
  · obtain ⟨image, rfl⟩ := him
    cases h with
    | idle => exact hs
    | clash hc | unread hc => cases hc
    | sent hc => cases hc
    | configReadDone =>
      obtain ⟨_, howed, hlast⟩ := loadImage_joined_frames image s
      exact Ending.close_indSound he hs hb (by rw [howed]) hlast (.inl (hi image rfl))
  · have hn := h.noNewState hc fun image heq => him ⟨image, heq⟩
    exact Ending.close_indSound he hs hb hn.states hn.last (.inr hn.owed)

end Sys2Proof.Machine

namespace Sys2Proof.Machine

open Host

theorem flagBit_le (n : Nat) (x : Bool) : flagBit n x ≤ n := by cases x <;> simp [flagBit]

/-- The fresh-start mark is the top bit of the flags (Table 11-3). -/
theorem stateFrame_fresh (address : Nat) (fresh : Bool) (f : Faults) (queueCount carriedCount : Nat) (l : Four Summary) :
    (stateFrame address fresh f queueCount carriedCount l).fresh = fresh := by
  have h6 := flagBit_le 64 f.configFault
  have h5 := flagBit_le 32 f.addressClash
  have h4 := flagBit_le 16 f.fastClockFail
  have h3 := flagBit_le 8 f.commFail
  have h2 := flagBit_le 4 f.lineTrouble
  have h1 := flagBit_le 2 f.busTrouble
  have h0 := flagBit_le 1 f.queueOverflow
  have h7 : flagBit 128 fresh = if fresh then 128 else 0 := by cases fresh <;> rfl
  simp only [stateFrame, Frame.fresh, byte, BitVec.toNat_ofNat, stateFlags, h7]
  cases fresh <;> simp <;> omega

theorem Faults.any_iff (f : Faults) : f.any = true ↔ f.configFault = true ∨ f.addressClash = true ∨
    f.fastClockFail = true ∨ f.commFail = true ∨ f.lineTrouble = true ∨ f.busTrouble = true ∨ f.queueOverflow = true := by
  simp [Faults.any, or_assoc]

theorem lineTrouble_iff (s : State) :
    s.faults.lineTrouble = true ↔ ∃ k, (s.entry k).wired = true ∧ (s.entry k).trouble = true := by
  have hall : ∀ p : LineId → Prop, (∃ k, p k) ↔ p .l0 ∨ p .l1 ∨ p .l2 ∨ p .l3 := fun p => by
    constructor
    · rintro ⟨k, hk⟩
      cases k <;> simp [hk]
    · rintro (h | h | h | h) <;> exact ⟨_, h⟩
  rw [hall]
  simp [State.faults, Four.toList, State.entry, LineView.get, Four.get]

theorem faultOutput_iff (s : State) : s.faultOutput = true ↔ s.loader.verified = false ∨ s.loader.configFault = true ∨
    s.ind.addressClash = true ∨ s.clock.latch = true ∨ s.queue.commFail = true ∨
    (∃ k, (s.entry k).wired = true ∧ (s.entry k).trouble = true) ∨ s.zone.busTrouble = true ∨
    s.queue.queueOverflow = true := by
  rw [State.faultOutput, Bool.or_eq_true, Faults.any_iff, lineTrouble_iff, Bool.not_eq_true']
  rfl

/-! ### A STATE in a slot (R176) -/

/-- Every STATE in a slot carries the items as they stand, and they are the last contents. -/
def State.StatesCurrent (s : State) : Prop :=
  ∀ x ∈ s.rbc.slots, x.marker = .state →
    x.frame = stateFrame s.address s.ind.freshMark s.faults s.queue.records.length
      (s.queue.records.filter Record.isCarried).length (s.view.entries.mapLines fun _ e => e.summary) ∧
    x.unacked = 0 ∧ s.ind.last = some s.reported ∧ s.ind.stateOwed = false

theorem putInSlot_faults (m : Marker) (f : Frame) (s : State) : (s.putInSlot m f).faults = s.faults := by
  simp only [State.faults, State.putInSlot]
  split <;> rfl

theorem putInSlot_freshMark (m : Marker) (f : Frame) (s : State) : (s.putInSlot m f).ind.freshMark = s.ind.freshMark := by
  simp only [State.putInSlot]
  split <;> rfl

theorem State.StatesCurrent.loadOne {s : State} (h : s.StatesCurrent) : s.loadOne.StatesCurrent := by
  unfold State.loadOne
  split
  · split
    · exact h
    · next m f hm =>
      have hcompose : s.compose m = some f := by
        have hmem := lowestFrame_mem hm
        simp only [State.loadable, List.mem_filterMap, Option.map_eq_some_iff] at hmem
        obtain ⟨n, _, g, hg, heq⟩ := hmem
        cases heq
        exact hg
      intro x hx hxm
      have hreported : (s.putInSlot m f).reported = s.reported := by
        rw [State.reported, putInSlot_faults]
        rfl
      have hind : (s.putInSlot m f).ind =
        if m = .state then { s.ind with last := some s.reported, stateOwed := false } else s.ind := rfl
      rw [hreported, putInSlot_faults, putInSlot_freshMark]
      simp only [State.putInSlot, List.mem_append, List.mem_singleton] at hx
      rcases hx with hx | rfl
      · obtain ⟨hframe, hunacked, hlast, howed⟩ := h x hx hxm
        refine ⟨hframe, hunacked, ?_⟩
        rw [hind]
        split
        · exact ⟨rfl, rfl⟩
        · exact ⟨hlast, howed⟩
      · subst hxm
        exact ⟨(Option.some.inj hcompose).symm, rfl, rfl, rfl⟩
  · exact h

/-- The end of a step puts a current STATE in a slot, where there was none. -/
theorem Ending.close_statesCurrent {s b u : State} {e : Ending} (he : e ≠ Ending.none)
    (hu : (u.rbc.slots.map Slot.marker).Sublist (s.rbc.slots.map Slot.marker))
    (hs : ∀ y ∈ s.rbc.slots, y.marker ≠ .state) : (e.close b u).StatesCurrent := by
  rw [e.close_of_ne b u he]
  refine State.StatesCurrent.loadOne (State.StatesCurrent.loadOne (State.StatesCurrent.loadOne fun x hx hm => ?_))
  rw [State.oweState_slots, State.noteReported_rbc] at hx
  have hmem := ((e.afresh_keepsBus b u).slots.trans hu).subset (List.mem_map.mpr ⟨x, hx, hm⟩)
  obtain ⟨y, hy, hym⟩ := List.mem_map.mp hmem
  exact absurd hym (hs y hy)

theorem State.Effect.statesCurrent {s b u : State} {c : Instr} {e : Ending} (h : s.Effect c e b u)
    (hs : ∀ y ∈ s.rbc.slots, y.marker ≠ .state) : (e.close b u).StatesCurrent := by
  have hsub : (u.rbc.slots.map Slot.marker).Sublist (s.rbc.slots.map Slot.marker) := by
    by_cases hc : c = .reset
    · subst hc
      rcases h.eq_reset with hu | hu <;> rw [hu]
      exact List.nil_sublist _
    · by_cases him : ∃ image, c = .configReadDone image
      · obtain ⟨image, rfl⟩ := him
        cases h with
        | idle => exact .refl _
        | clash hc | unread hc => cases hc
        | sent hc => cases hc
        | configReadDone => rw [(loadImage_joined_frames image s).1]
      · exact (h.noNewState hc fun image heq => him ⟨image, heq⟩).slots
  by_cases he : e = Ending.none
  · subst he
    intro x hx hm
    obtain ⟨y, hy, hym⟩ := List.mem_map.mp (hsub.subset (List.mem_map.mpr ⟨x, hx, hm⟩))
    exact absurd hym (hs y hy)
  · exact Ending.close_statesCurrent he hsub hs

/-! ### The first STATE (R170, R175) -/

theorem State.loadOne_toSend (s : State) (m : Marker) : s.loadOne.toSend m ≤ s.toSend m := by
  unfold State.loadOne
  split
  · split
    · exact Nat.le_refl _
    · next n f h =>
      refine State.toSend_putInSlot n f s m ?_
      have hmem := lowestFrame_mem h
      simp only [State.loadable, List.mem_filterMap, Option.map_eq_some_iff] at hmem
      obtain ⟨_, hn, _, _, heq⟩ := hmem
      cases heq
      exact hn
  · exact Nat.le_refl _

theorem State.loadOne_owes {m : Marker} {s : State} (h : s.rbc.owes m = true) : s.loadOne.rbc.owes m = true := by
  unfold State.loadOne
  split
  · split
    · exact h
    · exact owes_putInSlot h
  · exact h

theorem owes_state_eq_false {s : State} (h : s.toSend .state = 0) : s.rbc.owes .state = false := by
  simp only [State.toSend, Nat.add_zero, Nat.add_eq_zero_iff, List.count_eq_zero] at h
  refine Bool.eq_false_iff.mpr fun ho => ?_
  rcases (owes_iff _ _).mp ho with ho | ⟨x, hx, hm⟩
  · exact h.1 ho
  · exact h.2 (List.mem_map.mpr ⟨x, hx, hm⟩)

/-- With no OUTCOME to send, a loading moves a frame and makes none. -/
theorem State.loadOne_frames {s : State} (h : s.carry.outcomes = []) : s.loadOne.carry.outcomes = [] ∧
    s.loadOne.rbc.owed.length + s.loadOne.rbc.slots.length = s.rbc.owed.length + s.rbc.slots.length := by
  unfold State.loadOne
  split
  · split
    · exact ⟨h, rfl⟩
    · next m f hm =>
      have howed : m ∈ s.rbc.owed := by
        have hmem := lowestFrame_mem hm
        simp only [State.loadable, State.outcomeMarkers, h, List.filter_nil, List.map_nil, List.append_nil,
          List.mem_filterMap, Option.map_eq_some_iff] at hmem
        obtain ⟨_, hn, _, _, heq⟩ := hmem
        cases heq
        exact hn
      refine ⟨by simp [State.putInSlot, CarryUnit.slotLoaded, h, changeFirstOutcome], ?_⟩
      have := List.length_pos_of_mem howed
      simp only [State.putInSlot, List.length_erase_of_mem howed, List.length_append, List.length_singleton]
      omega
  · exact ⟨h, rfl⟩

theorem State.choose_owed (s : State) : s.choose.rbc.owed.length ≤ s.rbc.owed.length + 1 := by
  unfold State.choose
  split
  · split
    · omega
    · split
      · simp only [State.startCall, State.trySeize_rbc, State.requestClock_rbc, State.placeOn]
        split <;> simp [Rbc.owe]
      · omega
  · omega

theorem State.makeOffer_owed (s : State) : s.makeOffer.rbc.owed.length ≤ s.rbc.owed.length + 1 := by
  unfold State.makeOffer
  split
  · omega
  · split
    · omega
    · simp [Rbc.owe]

/-- At most a CLAIM and an OFFER become owed when the choice and the offer are taken. -/
theorem State.chooseAndOffer_owed (s : State) : s.chooseAndOffer.rbc.owed.length ≤ s.rbc.owed.length + 2 := by
  unfold State.chooseAndOffer
  have hone := fun s : State => (State.makeOffer_owed s.choose).trans (Nat.add_le_add_right (State.choose_owed s) 1)
  have hother := fun s : State => (State.choose_owed s.makeOffer).trans (Nat.add_le_add_right (State.makeOffer_owed s) 1)
  split
  · dsimp only
    split
    · exact hother { s with free := s.free + 1 }
    · exact hone { s with free := s.free + 1 }
  · exact hone s

end Sys2Proof.Machine

namespace Sys2Proof.Machine

open Host

@[simp] theorem loadImage_carry (image : BitVec 416) (s : State) : (loadImage image s).carry = s.carry := by
  unfold loadImage
  split <;> rfl

@[simp] theorem joinBus_carry (s : State) : (joinBus s).carry = s.carry := rfl

@[simp] theorem beginSampling_carry (s : State) : (beginSampling s).carry = s.carry := by rw [beginSampling_keeps]

/-- The station right after steps 3 to 7 of start-up, before the end of the step (R170). -/
def State.configured (image : BitVec 416) (s : State) : State := beginSampling (joinBus (loadImage image s))

theorem exec_configReadDone {image : BitVec 416} {s : State} (h : s.loader.reading = true) :
    exec (.configReadDone image) s = .next (s.settle (s.configured image)) := if_pos h

theorem configured_address (image : BitVec 416) (s : State) : (s.configured image).address = s.address := by
  simp only [State.configured, State.address, beginSampling_loader, joinBus_loader, loadImage]
  split <;> rfl

theorem configured_ind (image : BitVec 416) (s : State) : (s.configured image).ind =
    if s.address = 0 then s.ind else { s.ind with stateOwed := true, freshMark := true } := by
  have ha : (loadImage image s).address = s.address := by
    simp only [State.address, loadImage]
    split <;> rfl
  simp only [State.configured, beginSampling_ind, joinBus, loadImage_ind, ha]

theorem configured_rbc (image : BitVec 416) (s : State) : (s.configured image).rbc = { s.rbc with join := .running } := by
  simp [State.configured, joinBus]

theorem configured_carry (image : BitVec 416) (s : State) : (s.configured image).carry = s.carry := by
  simp [State.configured]

theorem checkAccept_of_none {before s : State} (h : s.carry.accept = none) : State.checkAccept before s = s := by
  simp [State.checkAccept, State.acceptUnsent, h]

/-- While the configuration is read nothing is owed, in a slot, offered or accepted (R165, R171). -/
theorem State.Unstarted.frames {s : State} (h : s.Unstarted) (hn : s.loader.inReset = false)
    (hr : s.loader.reading = true) : s.rbc.owed = [] ∧ s.rbc.slots = [] ∧ s.carry.accept = none ∧ s.carry.outcomes = [] ∧
      s.ind.last = none ∧ s.ind.spacing = false ∧ s.ind.freshMark = false := by
  rw [h.reading hn hr]
  exact ⟨rfl, rfl, rfl, rfl, rfl, rfl, rfl⟩

theorem State.loadSlots_toSend (s : State) (m : Marker) : s.loadSlots.toSend m ≤ s.toSend m :=
  ((s.loadOne.loadOne.loadOne_toSend m).trans (s.loadOne.loadOne_toSend m)).trans (s.loadOne_toSend m)

theorem State.oweState_address_zero {s : State} (ha : s.address = 0) : s.oweState.toSend .state ≤ s.toSend .state := by
  unfold State.oweState
  split
  · rw [if_neg (by simp [ha])]
  · have : (s.rbc.owed.filter fun n => !decide (n = Marker.state)).count .state ≤ s.rbc.owed.count .state :=
      List.filter_sublist.count_le _
    simp only [State.toSend, Rbc.withdraw]
    omega

theorem toSend_state_eq_zero {s : State} (h : s.rbc.owes .state = false) : s.toSend .state = 0 := by
  have hno : ¬ (Marker.state ∈ s.rbc.owed ∨ ∃ x ∈ s.rbc.slots, x.marker = .state) := by rw [← owes_iff, h]; decide
  rw [not_or] at hno
  simp only [State.toSend, Nat.add_zero, Nat.add_eq_zero_iff, List.count_eq_zero]
  exact ⟨hno.1, fun hm => hno.2 (by simpa using hm)⟩

/-- At address 0 the end of a step owes no STATE (R166). -/
theorem settle_noState {before s : State} (ha : s.address = 0) (h : s.toSend .state = 0) :
    (State.settle before s).rbc.owes .state = false := by
  apply owes_state_eq_false
  have hv := (State.checkAccept_keepsBus before s).trans (State.chooseAndOffer_keepsBus _)
  have hset := (State.checkAccept_settled before s).trans (State.chooseAndOffer_settled _)
  rw [State.settle]
  generalize (State.checkAccept before s).chooseAndOffer = v at *
  have hnone : v.toSend .state = 0 := by
    have hcount := hv.states
    have hsub := hv.slots.count_le .state
    simp only [State.toSend] at h ⊢
    omega
  have hzero : (State.noteReported before v).address = 0 := by
    rw [State.address, State.noteReported_loader, hset.loader]
    exact ha
  have hsame : (State.noteReported before v).toSend .state = v.toSend .state :=
    State.toSend_of_same _ (State.noteReported_rbc _ _) (by simp)
  have hless := (State.loadSlots_toSend _ .state).trans (State.oweState_address_zero hzero)
  rw [hsame, hnone] at hless
  exact Nat.le_zero.mp hless

theorem noteReported_stateOwed {before s : State} (ho : s.ind.stateOwed = true) (hl : s.ind.last = none) :
    (State.noteReported before s).ind.stateOwed = true := by
  unfold State.noteReported
  split
  · exact ho
  · simp [hl]

theorem State.oweState_owes {s : State} (ho : s.ind.stateOwed = true) (hs : s.ind.spacing = false) (ha : s.address ≠ 0) :
    s.oweState.rbc.owes .state = true := by
  unfold State.oweState
  rw [if_pos ho]
  split
  · exact owes_owe_self _ _
  · next hmay =>
    by_contra hno
    exact hmay (by simp [hs, ha, Bool.eq_false_iff.mpr hno])

theorem State.oweState_owed (s : State) : s.oweState.rbc.owed.length ≤ s.rbc.owed.length + 1 := by
  unfold State.oweState
  split
  · split <;> simp [Rbc.owe]
  · exact (List.length_filter_le _ _).trans (Nat.le_add_right _ _)

/-- At another address a STATE that has never been loaded is owed at the end of a step, unless the spacing runs (R175). -/
theorem settle_owes_state {before s : State} (ho : s.ind.stateOwed = true) (hl : s.ind.last = none)
    (hs : s.ind.spacing = false) (ha : s.address ≠ 0) : (State.settle before s).rbc.owes .state = true := by
  have hv := (State.checkAccept_keepsBus before s).trans (State.chooseAndOffer_keepsBus _)
  have hset := (State.checkAccept_settled before s).trans (State.chooseAndOffer_settled _)
  rw [State.settle]
  generalize (State.checkAccept before s).chooseAndOffer = v at *
  refine State.loadOne_owes (State.loadOne_owes (State.loadOne_owes (State.oweState_owes ?_ ?_ ?_)))
  · exact noteReported_stateOwed (hv.owed.trans ho) (hv.last.trans hl)
  · rw [(State.noteReported_framesOnly before v).settled.spacing, hset.spacing, hs]
  · rw [State.address, State.noteReported_loader, hset.loader]
    exact ha

/-- Three frames or fewer find room in the three slots, the STATE among them (R91, R92). -/
theorem State.loadSlots_state {s : State} (hout : s.carry.outcomes = [])
    (hlen : s.rbc.owed.length + s.rbc.slots.length ≤ 3) (ho : s.rbc.owes .state = true) :
    ∃ x ∈ s.loadSlots.rbc.slots, x.marker = .state := by
  obtain ⟨hout1, hlen1⟩ := State.loadOne_frames hout
  obtain ⟨hout2, hlen2⟩ := State.loadOne_frames hout1
  obtain ⟨_, hlen3⟩ := State.loadOne_frames hout2
  have howes : s.loadSlots.rbc.owes .state = true := State.loadOne_owes (State.loadOne_owes (State.loadOne_owes ho))
  have hfill := s.loadSlots_filled
  have hall : s.loadSlots.rbc.owed.length + s.loadSlots.rbc.slots.length ≤ 3 :=
    (hlen3.trans (hlen2.trans hlen1)).trans_le hlen
  generalize s.loadSlots = t at *
  refine ((owes_iff _ _).mp howes).resolve_left fun hmem => ?_
  have hpos := List.length_pos_of_mem hmem
  rcases hfill with hfull | hempty
  · omega
  · simp only [State.loadable, List.filterMap_eq_nil_iff, Option.map_eq_none_iff] at hempty
    exact absurd (hempty .state (List.mem_append_left _ hmem)) (by simp [State.compose])

/-- At another address the end of start-up puts the first STATE in a slot (R170, R175). -/
theorem Unstarted.firstState {image : BitVec 416} {s : State} (h : s.Unstarted)
    (hn : s.loader.inReset = false) (hr : s.loader.reading = true) (ha : s.address ≠ 0) :
    ∃ x ∈ (s.settle (s.configured image)).rbc.slots, x.marker = .state := by
  obtain ⟨howed, hslots, haccept, houtcomes, hlast, hspacing, _⟩ := h.frames hn hr
  have hind := configured_ind image s
  rw [if_neg ha] at hind
  rw [State.settle, checkAccept_of_none (by rw [configured_carry, haccept])]
  have hv := State.chooseAndOffer_keepsBus (s.configured image)
  have hset := State.chooseAndOffer_settled (s.configured image)
  have hlen := State.chooseAndOffer_owed (s.configured image)
  generalize (s.configured image).chooseAndOffer = v at *
  have hw := (State.noteReported_framesOnly s v).settled
  have hout := (hw.trans (State.oweState_framesOnly _).settled).outcomes.trans hset.outcomes
  refine State.loadSlots_state ?_ ?_ (State.oweState_owes ?_ ?_ ?_)
  · rw [configured_carry, houtcomes] at hout
    exact List.map_eq_nil_iff.mp hout
  · have hadd := State.oweState_owed (s.noteReported v)
    have hvslots := hv.slots.length_le
    rw [State.noteReported_rbc] at hadd
    rw [configured_rbc] at hvslots hlen
    rw [howed] at hlen
    rw [hslots] at hvslots
    rw [State.oweState_slots, State.noteReported_rbc]
    simp only [List.length_map, List.length_nil] at hvslots hlen
    omega
  · exact noteReported_stateOwed (by rw [hv.owed, hind]) (by rw [hv.last, hind]; exact hlast)
  · rw [hw.spacing, hset.spacing, hind]
    exact hspacing
  · rw [State.address, State.noteReported_loader, hset.loader]
    exact fun h0 => ha ((configured_address image s).symm.trans h0)

/-- Settles O52: the flag and the marker by an invariant of every step; what a STATE carries by what the loading composes;
the first STATE, since the end of start-up owes at most three frames. -/
theorem indications : Obligations.Indications := by
  unfold Obligations.Indications
  refine ⟨faultOutput_iff, State.reset_indSound State.reset, fun c s t hs hi h => ?_, fun image s t hs hn hr h => ?_,
    fun c s t x h hx hm hno => ?_⟩
  · obtain ⟨e, b, u, rfl, hu⟩ := exec_effect h
    exact hu.indSound hs hi
  · rw [exec_configReadDone hr] at h
    obtain rfl := Outcome.next.inj h
    obtain ⟨howed, hslots, _, _, _, _, hfresh⟩ := hs.frames hn hr
    have hmark := (State.settle_settled s (s.configured image)).freshMark
    rw [configured_ind] at hmark
    refine ⟨fun ha => ?_, fun ha => ?_⟩
    · rw [if_neg ha] at hmark
      obtain ⟨x, hx, hm⟩ := Unstarted.firstState (image := image) hs hn hr ha
      have hcurrent : (s.settle (s.configured image)).StatesCurrent :=
        (State.Effect.configReadDone (image := image) hr).statesCurrent (by simp [hslots])
      obtain ⟨hframe, _, hlast, _⟩ := hcurrent x hx hm
      refine ⟨hmark, hlast, x, hx, hm, ?_⟩
      rw [hframe, stateFrame_fresh]
      exact hmark
    · rw [if_pos ha] at hmark
      have hnone : (s.configured image).toSend .state = 0 := by simp [State.toSend, configured_rbc, howed, hslots]
      exact ⟨hmark.trans hfresh, settle_noState ((configured_address image s).trans ha) hnone⟩
  · obtain ⟨e, b, u, rfl, hu⟩ := exec_effect h
    exact hu.statesCurrent hno x hx hm

end Sys2Proof.Machine

/-! ### Start-up (R165 to R171) -/

namespace Sys2Proof.Machine

open Host

/-! Until the configuration read ends nothing moves. -/

/-- Every block that watches, waits or holds something is as reset left it. -/
structure State.Dormant (s : State) : Prop where
  zone : s.zone = State.reset.zone
  queue : s.queue = State.reset.queue
  view : s.view = State.reset.view
  rbc : s.rbc = State.reset.rbc
  call : s.call = State.reset.call
  tone : s.tone = State.reset.tone
  carry : s.carry = State.reset.carry
  clock : s.clock = State.reset.clock
  last : s.ind.last = none
  spacing : s.ind.spacing = false
  unverified : s.loader.verified = false

/-- The commands that a dormant station answers with more than its own state (R40, R165, R167). -/
def startsUp : Instr → Bool
  | .reset => true
  | .releaseOfReset _ => true
  | .configReadDone _ => true
  | .stationTimeTick => true
  | _ => false

theorem State.Dormant.effect {s b u : State} {c : Instr} {e : Ending} (hs : s.Dormant) (hc : startsUp c = false)
    (h : s.Effect c e b u) : e = .none ∧ u = s := by
  have hcall : s.call = CallEngine.idle := hs.call
  have quiet : ∀ {state timer} {P : Prop}, s.timing state timer = true → P := fun ht => by
    simp [State.timing, hcall, CallEngine.idle] at ht
  have noWarming : ∀ {P : Prop}, s.clock.state = .warming → P := fun hw => by
    rw [hs.clock] at hw
    exact nomatch hw
  have noHand : ∀ {r : Record} {P : Prop}, s.callInHand = some r → P := fun hr => by
    simp [State.callInHand, hcall, CallEngine.idle] at hr
  have noLine : ∀ {k : LineId} {P : Prop}, s.call.line = some k → P := fun hk => by
    rw [hcall] at hk
    exact nomatch hk
  have entry : ∀ k, s.entry k = State.reset.entry k := fun k => by rw [State.entry, hs.view]; rfl
  have noReceipt : ∀ {P : Prop}, (s.rbc.receiving && !s.rbc.stuck) = true → P := fun hr => by
    rw [hs.rbc] at hr
    exact nomatch hr
  have noSlot : ∀ {x : Slot} {P : Prop}, s.rbc.sendingSlot = some x → P := fun hx => by
    rw [hs.rbc] at hx
    exact nomatch hx
  have notHearing : ∀ {x : Bool} {P : Prop}, (s.hearing && x) = true → P := fun hh => by
    have : s.clock.state = .quiet := by rw [hs.clock]; rfl
    simp [State.hearing, this] at hh
  cases h with
  | idle => exact ⟨rfl, rfl⟩
  | reset | releaseOfReset | configReadDone | stationTimeTick => cases hc
  | zonesQuiet h | zonesChanged h | busTroubleTimerExpiry h | testTimerExpiry h =>
    rw [hs.zone] at h
    exact nomatch h
  | linesQuiet h | linesLost h | linesChanged h => exact absurd (hs.unverified.symm.trans h) (by decide)
  | @deadTimerExpiry k h | @peerIdleLimit k h | @pendingGuardPasses k h | @yieldLimitExpiry k h =>
    rw [entry] at h
    cases k <;> exact nomatch h
  | allDeadTimerExpiry h => rw [hs.view] at h; exact nomatch h
  | notBeforePasses h | nextOfferTimePasses h => rw [hs.queue] at h; exact nomatch h
  | carryTimeout hr => rw [hs.queue] at hr; exact nomatch hr
  | joinPeriodEnd h | frameStart h | passiveSuspendEnd h | stuckEntry h | stuckExit h | startOfFrameReceived h =>
    rw [hs.rbc] at h
    exact nomatch h
  | busIdle h | receiveError h | busOffRecovery h =>
    rw [hs.rbc] at h
    exact nomatch (Bool.and_eq_true_iff.mp h).1
  | transmitError hx | sent _ hx | arbitrationLost hx => exact noSlot hx
  | clash _ h | unread _ h => exact noReceipt h
  | claimReceived h | objectReceived h | releaseReceived h | offerReceived h | acceptReceived h | carryReceived h
  | outcomeReceived h | stateReceived h => exact noReceipt h
  | ownGuardPasses hk | yieldWaitExpiry hk => rw [hs.view] at hk; exact nomatch hk
  | offerWindowExpiry h | acceptPendingTimeout h => rw [hs.carry] at h; exact nomatch h
  | stateSpacingExpiry h => exact absurd (hs.spacing.symm.trans h) (by decide)
  | clockWarm h | clockUnsteady h => exact noWarming h.1
  | clockSteady h | clockEarly h | clockFailInClaim h | clockFail h => exact noWarming h
  | clockRelease h | clockReleaseIdle h => rw [hs.clock] at h; exact nomatch h
  | bargeClearingEnd hk | hangUpHoldEnd hk => exact noLine hk
  | dialToneWaitExpiry h | handshakeWaitExpiry h | sendEnd h | digitEnd h => exact quiet h
  | dialToneJudged h | handshakeJudged h => exact quiet (Bool.and_eq_true_iff.mp h).1
  | toneClassChange h | toneGapLimit h => exact notHearing h
  | busyPeriodLimit h | busyCadence h | busyCadenceUnread h => rw [hs.call] at h; exact nomatch h.1
  | settleEnd hr | kissoffJudged hr | kissoffResend hr | kissoffFailed hr | betweenMessagesEnd hr => exact noHand hr
  | lineLostTimerExpiry h => rw [hs.call] at h; exact nomatch h

/-- The station while its configuration is read: as reset left it but for the loader, station time and, at address 0, the
flag of the changed report (R165 to R168, R175). -/
def State.readingConfiguration (strap : BitVec 4) (time free : Nat) (pending : List Instr) : State := { State.reset with
  loader := { Loader.reset with inReset := false, reading := true, strap := strap, configFault := decide (strap = 0) }
  time := time
  ind := { Indication.reset with stateOwed := decide (strap = 0) }
  free := free
  pending := pending }

theorem State.Unstarted.dormant {s : State} (h : s.Unstarted) (hp : s.loader.inReset = true ∨ s.loader.reading = true) :
    s.Dormant := by
  by_cases hn : s.loader.inReset = true
  · rw [h.inReset hn]
    exact ⟨rfl, rfl, rfl, rfl, rfl, rfl, rfl, rfl, rfl, rfl, rfl⟩
  · rw [h.reading (Bool.eq_false_iff.mpr hn) (hp.resolve_left hn)]
    exact ⟨rfl, rfl, rfl, rfl, rfl, rfl, rfl, rfl, rfl, rfl, rfl⟩

theorem State.Unstarted.of_reset (free : Nat) (pending : List Instr) :
    ({ State.reset with free := free, pending := pending } : State).Unstarted where
  inReset _ := rfl
  reading h := by cases h

theorem State.Unstarted.of_reading (strap : BitVec 4) (time free : Nat) (pending : List Instr) :
    (State.readingConfiguration strap time free pending).Unstarted where
  inReset h := by cases h
  reading _ _ := rfl

theorem State.Unstarted.of_started {s : State} (hn : s.loader.inReset = false) (hr : s.loader.reading = false) :
    s.Unstarted := ⟨fun h => absurd (hn.symm.trans h) (by decide), fun _ h => absurd (hr.symm.trans h) (by decide)⟩

theorem State.loadOne_of_none {s : State} (h : s.loadable = []) : s.loadOne = s := by
  simp [State.loadOne, h, State.lowestFrame]

theorem State.loadSlots_of_none {s : State} (h : s.loadable = []) : s.loadSlots = s := by
  rw [State.loadSlots, State.loadOne_of_none h, State.loadOne_of_none h, State.loadOne_of_none h]

/-- While the configuration is read the end of a step finds nothing to owe or to load (R166, R175). -/
theorem readingConfiguration_closed (strap : BitVec 4) (time free : Nat) (pending : List Instr) :
    ((State.readingConfiguration strap time free pending).oweState).loadSlots =
      State.readingConfiguration strap time free pending := by
  have howe : (State.readingConfiguration strap time free pending).oweState =
      State.readingConfiguration strap time free pending := by
    unfold State.oweState
    split
    · next ho =>
      have ha : (State.readingConfiguration strap time free pending).address = 0 := by
        rw [show strap = 0 from of_decide_eq_true ho]
        rfl
      rw [if_neg (by simp [ha])]
    · rfl
  rw [howe, State.loadSlots_of_none rfl]

/-- The fault of address 0 shows in the reported items (R171, R175). -/
theorem noteReported_released (straps : BitVec 4) (free : Nat) (pending : List Instr) :
    State.noteReported { State.reset with free := free, pending := pending } { State.reset with
      time := 0
      loader := { Loader.reset with inReset := false, reading := true, strap := straps, configFault := decide (straps = 0) }
      free := free
      pending := pending } = State.readingConfiguration straps 0 free pending := by
  unfold State.noteReported
  split
  · next hr =>
    have hfault : decide (straps = 0) = false := congrArg (fun r => r.faults.configFault) hr
    simp only [State.readingConfiguration, hfault]
    rfl
  · next hr =>
    have hfault : decide (straps = 0) = true := by
      by_contra hn
      refine hr ?_
      simp only [Bool.eq_false_iff.mpr hn]
      rfl
    simp only [State.readingConfiguration, hfault]
    rfl

theorem settleChoice_ticked (strap : BitVec 4) (time free : Nat) (pending : List Instr) :
    State.settleChoice (State.readingConfiguration strap time free pending)
      (State.readingConfiguration strap (time + 1) free pending) =
      State.readingConfiguration strap (time + 1) free pending := by
  have hchoose : (State.readingConfiguration strap (time + 1) free pending).choose =
      State.readingConfiguration strap (time + 1) free pending := by
    unfold State.choose
    split <;> rfl
  have hnote : State.noteReported (State.readingConfiguration strap time free pending)
      (State.readingConfiguration strap (time + 1) free pending) =
      State.readingConfiguration strap (time + 1) free pending := if_pos rfl
  rw [State.settleChoice, checkAccept_of_none rfl, hchoose, hnote, readingConfiguration_closed]

theorem configured_loader (image : BitVec 416) (s : State) :
    (s.configured image).loader.reading = false ∧ (s.configured image).loader.inReset = s.loader.inReset := by
  simp only [State.configured, beginSampling_loader, joinBus_loader]
  exact ⟨loadImage_reading image s, loadImage_inReset image s⟩

theorem loader_of_startsUp {s b u : State} {c : Instr} {e : Ending} (h : s.Effect c e b u) (hc : startsUp c = false) :
    u.loader = s.loader :=
  h.loader (by rintro rfl; cases hc) (by rintro _ rfl; cases hc) (by rintro _ rfl; cases hc)

theorem startsUp_sent {c : Instr} {type : FrameType} (h : sentType c = some type) : startsUp c = false := by
  cases c <;> first | rfl | cases h

theorem startsUp_receipt {c : Instr} (h : isReceipt c = true) : startsUp c = false := by
  cases c <;> first | rfl | cases h

/-- Until the configuration read ends nothing moves, whatever the command. -/
theorem State.Effect.unstarted {s b u : State} {c : Instr} {e : Ending} (h : s.Effect c e b u) (hs : s.Unstarted) :
    (e.close b u).Unstarted := by
  by_cases hc : startsUp c = false
  · by_cases hp : s.loader.inReset = true ∨ s.loader.reading = true
    · obtain ⟨rfl, rfl⟩ := (hs.dormant hp).effect hc h
      exact hs
    · have hl := (e.close_settled b u).loader.trans (loader_of_startsUp h hc)
      obtain ⟨hn, hr⟩ := not_or.mp hp
      exact .of_started ((congrArg Loader.inReset hl).trans (Bool.eq_false_iff.mpr hn))
        ((congrArg Loader.reading hl).trans (Bool.eq_false_iff.mpr hr))
  · cases h with
    | idle => exact hs
    | reset => exact .of_reset s.free s.pending
    | @releaseOfReset straps hr =>
      rw [hs.inReset hr, Ending.close, State.settleFrames]
      have hnote := noteReported_released straps s.free s.pending
      refine Eq.mpr (congrArg (fun t : State => t.oweState.loadSlots.Unstarted) hnote) ?_
      rw [readingConfiguration_closed]
      exact .of_reading _ _ _ _
    | @configReadDone image hr =>
      have hn : s.loader.inReset = false := by
        by_contra hn
        rw [hs.inReset (Bool.not_eq_false _ ▸ hn)] at hr
        exact nomatch hr
      obtain ⟨hreading, hreset⟩ := configured_loader image s
      have hl := (State.settle_settled s (s.configured image)).loader
      exact State.Unstarted.of_started (s := s.settle (s.configured image))
        ((congrArg Loader.inReset hl).trans (hreset.trans hn)) ((congrArg Loader.reading hl).trans hreading)
    | stationTimeTick hn =>
      by_cases hr : s.loader.reading = true
      · rw [hs.reading (Bool.eq_false_iff.mpr hn) hr]
        have hclosed := settleChoice_ticked s.loader.strap s.time s.free s.pending
        exact Eq.mpr (congrArg State.Unstarted hclosed) (.of_reading _ _ _ _)
      · have hl := (Ending.choice.close_settled s { s with
          time := s.time + 1
          view := { s.view with entries := drainedEntries s.view.entries }
          zone := { s.zone with testTimer := s.zone.testTimer.map fun t => t - 1 } }).loader
        exact .of_started ((congrArg Loader.inReset hl).trans (Bool.eq_false_iff.mpr hn))
          ((congrArg Loader.reading hl).trans (Bool.eq_false_iff.mpr hr))
    | clash hr | unread hr => exact absurd (startsUp_receipt hr) hc
    | sent hsent => exact absurd (startsUp_sent hsent) hc
    | _ => exact absurd rfl hc

theorem State.Settled.join {s t : State} (h : State.Settled s t) : t.rbc.join = s.rbc.join := by
  have := congrArg Rbc.join h.wire
  exact this

/-- The image's bit of a line (R54, Table 9-4). -/
theorem imageWires_eq (image : BitVec 416) (k : LineId) : imageWires image k = image.getLsbD (8 * (51 - 27) + k.index) := by
  have hdiv : image.toNat / 2 ^ (8 * (51 - 27) + k.index) = image.toNat / 2 ^ (416 - 8 * (27 + 1)) / 2 ^ k.index := by
    rw [Nat.div_div_eq_div_mul, ← pow_add]
  rw [imageWires, imageByte, payloadByte, ← BitVec.testBit_toNat, Nat.testBit_eq_decide_div_mod_eq, hdiv]
  generalize image.toNat / 2 ^ (416 - 8 * (27 + 1)) = m
  refine decide_eq_decide.mpr ?_
  cases k <;> simp only [LineId.index] <;> omega

theorem State.settled_stateOwed (s : State) (x : Bool) :
    State.Settled s { s with ind := { s.ind with stateOwed := x } } := by
  constructor <;> first
    | (simp [State.entry]; done)
    | exact fun _ r hr _ => hr
    | exact fun m => Nat.le_add_right_of_le (State.toSend_of_same m rfl rfl).le

/-- The station with the fields of a verified image (R169, R170). -/
theorem loadImage_verifies {image : BitVec 416} (h : imageVerifies image = true) (s : State) :
    loadImage image s = { s with
      loader := { s.loader with
        reading := false, image := image, verified := true, settings := imageSettings image }
      view := { s.view with entries := s.view.entries.mapLines fun k e =>
                  { e with wired := (image.getLsbD (8 * (51 - 27) + k.index)) } }
      clock := { s.clock with warmTime := imageWarmTime image } } := by
  simp only [loadImage, h, if_true, imageWires_eq]

theorem loadImage_unverified {image : BitVec 416} (h : imageVerifies image = false) (s : State) :
    loadImage image s = { s with loader := { s.loader with reading := false, image := image, configFault := true } } := by
  simp [loadImage, h]

/-- In the quiet of the configuration fault FAULT is asserted (R172). -/
theorem State.FaultQuiet.faultOutput {s : State} (h : s.FaultQuiet) : s.faultOutput = true :=
  (faultOutput_iff s).mpr (.inr (.inl h.fault))

/-- In the quiet the end of a step notes the reported items and loads the slots, no more. -/
theorem State.FaultQuiet.framesOnly {s : State} (h : s.FaultQuiet) (before : State) :
    State.FramesOnly s (before.settle s) := by
  have heq : before.settle s = before.settleFrames s := by
    rw [State.settle, h.checkAccept, h.chooseAndOffer]
    rfl
  rw [heq]
  exact State.settleFrames_framesOnly before s

/-- Step 7 of start-up where no CONFIG_FAULT stands (R170). -/
theorem beginSampling_of {s : State} (hf : s.loader.configFault = false) : beginSampling s = { s with
    queue := s.queue.admitEvent s.time stationStart
    zone := { s.zone with sampling := true, testTimer := testInterval s.loader.settings.testHours } } := by
  simp [beginSampling, State.raise, hf]

/-- Steps 5 and 6 at an address that is not 0 (R95, R175). -/
theorem joinBus_address_ne {s : State} (ha : s.address ≠ 0) : joinBus s = { s with
    rbc := { s.rbc with join := .running }
    ind := { s.ind with stateOwed := true, freshMark := true } } := by
  simp only [joinBus, if_neg ha]

theorem joinBus_address_zero {s : State} (ha : s.address = 0) :
    joinBus s = { s with rbc := { s.rbc with join := .running } } := by
  simp only [joinBus, if_pos ha]

/-- CONFIG_READ_DONE with an image that verifies, at an address that is not 0 (R169, R170). -/
theorem configured_verified {image : BitVec 416} {s : State} (hv : imageVerifies image = true)
    (hf : s.loader.configFault = false) (ha : s.address ≠ 0) : s.configured image = { s with
      loader := { s.loader with
        reading := false, image := image, verified := true, settings := imageSettings image }
      view := { s.view with entries := s.view.entries.mapLines fun k e =>
                  { e with wired := (image.getLsbD (8 * (51 - 27) + k.index)) } }
      clock := { s.clock with warmTime := imageWarmTime image }
      rbc := { s.rbc with join := .running }
      ind := { s.ind with stateOwed := true, freshMark := true }
      queue := s.queue.admitEvent s.time stationStart
      zone := { s.zone with sampling := true, testTimer := testInterval (imageSettings image).testHours } } := by
  rw [State.configured, loadImage_verifies hv, joinBus_address_ne (by exact ha)]
  exact beginSampling_of hf

/-- The same image at address 0: no event and no sampling (R171). -/
theorem configured_address_zero {image : BitVec 416} {s : State} (hv : imageVerifies image = true)
    (hf : s.loader.configFault = true) (ha : s.address = 0) : s.configured image = { s with
      loader := { s.loader with
        reading := false, image := image, verified := true, settings := imageSettings image }
      view := { s.view with entries := s.view.entries.mapLines fun k e =>
                  { e with wired := (image.getLsbD (8 * (51 - 27) + k.index)) } }
      clock := { s.clock with warmTime := imageWarmTime image }
      rbc := { s.rbc with join := .running } } := by
  rw [State.configured, loadImage_verifies hv, joinBus_address_zero (by exact ha)]
  exact if_pos hf

/-- An image that does not verify: CONFIG_FAULT, the join period, and the STATE (R168, R171). -/
theorem configured_unverified {image : BitVec 416} {s : State} (hv : imageVerifies image = false) :
    s.configured image = { s with
      loader := { s.loader with reading := false, image := image, configFault := true }
      rbc := { s.rbc with join := .running }
      ind := if s.address = 0 then s.ind else { s.ind with stateOwed := true, freshMark := true } } := by
  rw [State.configured, loadImage_unverified hv]
  exact if_pos rfl

/-- Settles O17: until the read ends the station is dormant; at its end the state of steps 3 to 7 is written out. -/
theorem configReadDoneCompletes : Obligations.ConfigReadDoneCompletes := by
  unfold Obligations.ConfigReadDoneCompletes
  refine ⟨.of_reset State.reset.free State.reset.pending, fun c s t hs h => ?_, fun image s hr => ⟨fun hv hf ha => ?_, ?_⟩⟩
  · obtain ⟨e, b, u, rfl, hu⟩ := exec_effect h
    exact hu.unstarted hs
  · have hind := configured_ind image s
    rw [if_neg ha] at hind
    have hset := State.settle_settled s (s.configured image)
    refine ⟨_, exec_configReadDone hr, fun hl hs => ?_, ?_, ?_⟩
    · exact settle_owes_state (by rw [hind]) (by rw [hind]; exact hl) (by rw [hind]; exact hs)
        (by rw [configured_address]; exact ha)
    · rw [hset.freshMark, hind]
    · refine State.Settled.trans ?_ hset
      rw [configured_verified hv hf ha]
      exact State.settled_stateOwed _ true
  · intro hn hq hc hk ho hacc
    have hnoState : s.address = 0 → s.rbc.owes .state = false →
        (s.settle (s.configured image)).rbc.owes .state = false := fun ha hno =>
      settle_noState ((configured_address image s).trans ha)
        (by simpa [State.toSend, configured_rbc] using toSend_state_eq_zero hno)
    refine ⟨fun hv hf ha => ?_, fun hv => ?_⟩
    · have hquiet : (s.configured image).FaultQuiet := by
        rw [configured_address_zero hv hf ha]
        exact ⟨hf, hn, hq, hc, hk, ho, hacc⟩
      have hclosed : (s.settle (s.configured image)).FaultQuiet := hquiet.close .full s
      refine ⟨_, exec_configReadDone hr, hclosed, hclosed.faultOutput, hnoState ha, ?_⟩
      exact configured_address_zero hv hf ha ▸ State.settle_settled s (s.configured image)
    · have hmade := configured_unverified (s := s) hv
      have hquiet : (s.configured image).FaultQuiet := by
        rw [hmade]
        exact ⟨rfl, hn, hq, hc, hk, ho, hacc⟩
      have hclosed : (s.settle (s.configured image)).FaultQuiet := hquiet.close .full s
      have hframes := hquiet.framesOnly s
      have hset := hframes.settled
      have hind := configured_ind image s
      refine ⟨_, exec_configReadDone hr, hclosed, ?_, fun k => ?_, hclosed.faultOutput, ?_, fun ha => ⟨?_, fun hl hs => ?_⟩,
        hnoState⟩
      · rw [hset.loader, hmade]
      · rw [State.entry, hframes.sameView, hmade]
        rfl
      · rw [hset.join, hmade]
      · rw [hset.freshMark, hind, if_neg ha]
      · rw [if_neg ha] at hind
        exact settle_owes_state (by rw [hind]) (by rw [hind]; exact hl) (by rw [hind]; exact hs)
          (by rw [configured_address]; exact ha)

end Sys2Proof.Machine

/-! ### The check digit and the queue order (R26, R41, R42, R53) -/

namespace Sys2Proof.Machine

open Host

/-- The weight of the symbol at a place of a block (R53). -/
def symbolWeight (i : Nat) : Nat := if i % 2 = 0 then 3 else 1

theorem symbolWeight_add_two (i : Nat) : symbolWeight (i + 2) = symbolWeight i := by
  simp only [symbolWeight, Nat.add_mod_right]

/-- One symbol changed moves the sum by its weight times the change (R53). -/
theorem weightedSum_set {l : List Nat} {i a : Nat} (v : Nat) (h : l[i]? = some a) :
    weightedSum (l.set i v) + symbolWeight i * a = weightedSum l + symbolWeight i * v := by
  induction l using weightedSum.induct generalizing i with
  | case1 => simp at h
  | case2 b =>
    cases i with
    | zero =>
      simp only [List.getElem?_cons_zero, Option.some.injEq] at h
      simp only [List.set_cons_zero, weightedSum, symbolWeight, h, Nat.zero_mod, if_true]
      omega
    | succ i => simp at h
  | case3 b c rest ih =>
    match i with
    | 0 =>
      simp only [List.getElem?_cons_zero, Option.some.injEq] at h
      simp only [List.set_cons_zero, weightedSum, symbolWeight, h, Nat.zero_mod, if_true]
      omega
    | 1 =>
      simp only [List.getElem?_cons_succ, List.getElem?_cons_zero, Option.some.injEq] at h
      simp only [List.set_cons_succ, List.set_cons_zero, weightedSum, h, show symbolWeight 1 = 1 from rfl]
      omega
    | i + 2 =>
      simp only [List.getElem?_cons_succ] at h
      have := ih h
      simp only [List.set_cons_succ, weightedSum, symbolWeight_add_two]
      omega

theorem checkDigit_le (l : List Nat) : checkDigit l ≤ 12 := Nat.le_of_lt_succ (Nat.mod_lt _ (by decide))

theorem checkDigit_sum (l : List Nat) : (weightedSum l + checkDigit l) % 13 = 0 := by
  simp only [checkDigit]
  omega

/-- Settles O12: the weights 3 and 1, and their difference 2, have no factor in common with 13. -/
theorem checkDigitCatchesSlips : Obligations.CheckDigitCatchesSlips := by
  unfold Obligations.CheckDigitCatchesSlips
  intro l hlen hle
  have hsum := checkDigit_sum l
  have hcheck := checkDigit_le l
  refine ⟨hcheck, hsum, fun i v hi hv hne => ?_, fun d hd hne => by omega, fun i a b hi ha hb hab => ?_⟩
  · have hi' : i < l.length := by omega
    have hget : l[i]? = some l[i] := List.getElem?_eq_getElem hi'
    have hset := weightedSum_set v hget
    have hold := hle _ (List.getElem_mem hi')
    have hdiff : l[i] ≠ v := fun h => hne (by rw [hget, h])
    generalize l[i] = a at *
    simp only [symbolWeight] at hset
    split at hset <;> omega
  · have hmem : ∀ {j x : Nat}, l[j]? = some x → x ≤ 12 := fun hx => hle _ (List.mem_of_getElem? hx)
    have hfirst := weightedSum_set b ha
    have hnext : (l.set i b)[i + 1]? = some b := by rw [List.getElem?_set_ne (by omega), hb]
    have hsecond := weightedSum_set a hnext
    have := hmem ha
    have := hmem hb
    have hpair : symbolWeight i = 3 ∧ symbolWeight (i + 1) = 1 ∨ symbolWeight i = 1 ∧ symbolWeight (i + 1) = 3 := by
      simp only [symbolWeight]
      rcases Nat.mod_two_eq_zero_or_one i with h | h
      · exact .inl ⟨if_pos h, if_neg (by omega)⟩
      · exact .inr ⟨if_neg (by omega), if_pos (by omega)⟩
    rcases hpair with ⟨h0, h1⟩ | ⟨h0, h1⟩ <;> rw [h0] at hfirst <;> rw [h1] at hsecond <;> omega

/-! ### The wait grade and the queue order -/

/-- A period ends when the age becomes a multiple of 20 (R41). -/
theorem periodsSince_succ {now start : Nat} (h : start ≤ now) :
    periodsSince (now + 1) start = periodsSince now start + if (now + 1 - start) % 20 = 0 then 1 else 0 := by
  simp only [periodsSince]
  split <;> omega

theorem grade_falls {n now start : Nat} (h : start ≤ now) : n - periodsSince (now + 1) start =
    if (now + 1 - start) % 20 = 0 then n - periodsSince now start - 1 else n - periodsSince now start := by
  rw [periodsSince_succ h]
  split <;> omega

theorem periodsSince_self (start : Nat) : periodsSince start start = 0 := by simp [periodsSince]

theorem precedes_iff (now : Nat) (a b : Record) : precedes now a b = true ↔
    a.cls < b.cls ∨ a.cls = b.cls ∧ (a.grade now < b.grade now ∨ a.grade now = b.grade now ∧
      (a.originTerm < b.originTerm ∨ a.originTerm = b.originTerm ∧ a.order < b.order)) := by
  unfold precedes
  repeat' split
  all_goals simp only [decide_eq_true_iff]; omega

theorem precedes_eq_false_iff (now : Nat) (a b : Record) : precedes now a b = false ↔
    ¬ (a.cls < b.cls ∨ a.cls = b.cls ∧ (a.grade now < b.grade now ∨ a.grade now = b.grade now ∧
      (a.originTerm < b.originTerm ∨ a.originTerm = b.originTerm ∧ a.order < b.order))) := by
  rw [← precedes_iff, Bool.not_eq_true]

theorem not_precedes_trans {now : Nat} {a b c : Record} (h : precedes now a b = false) (g : precedes now b c = false) :
    precedes now a c = false := by
  rw [precedes_eq_false_iff] at *
  omega

theorem precedes_asymm {now : Nat} {a b : Record} (h : precedes now a b = true) : precedes now b a = false := by
  rw [precedes_iff] at h
  rw [precedes_eq_false_iff]
  omega

theorem precedes_self (now : Nat) (a : Record) : precedes now a a = false := by
  rw [precedes_eq_false_iff]
  omega

/-- The first of a list is a member that no other precedes (R26). -/
theorem firstOf_spec (now : Nat) {l : List Record} (h : l ≠ []) :
    ∃ f, firstOf now l = some f ∧ f ∈ l ∧ ∀ r ∈ l, precedes now r f = false := by
  induction l with
  | nil => exact absurd rfl h
  | cons r rest ih =>
    by_cases hr : rest = []
    · subst hr
      exact ⟨r, rfl, List.mem_singleton_self r, by simp [precedes_self]⟩
    · obtain ⟨m, hm, hmem, hleast⟩ := ih hr
      simp only [firstOf, hm, List.mem_cons, forall_eq_or_imp]
      split
      · next hp => exact ⟨m, rfl, .inr hmem, precedes_asymm hp, hleast⟩
      · next hp =>
        refine ⟨r, rfl, .inl rfl, precedes_self now r, fun x hx => ?_⟩
        exact not_precedes_trans (hleast x hx) (Bool.eq_false_iff.mpr hp)

/-- Settles O13. -/
theorem gradesOrderTheQueue : Obligations.GradesOrderTheQueue := by
  unfold Obligations.GradesOrderTheQueue
  refine ⟨fun now r st => ⟨rfl, fun o ho hn => ?_, fun c hc hn => ?_⟩, fun now l hl => ⟨fun a _ b _ => precedes_iff now a b,
    fun a ha b hb hab => ?_, fun r hr => ?_⟩⟩
  · have hgrade : ∀ t, r.grade t = 31 - periodsSince t o.created := fun t => by simp [Record.grade, ho]
    simp only [hgrade, periodsSince_self, Nat.sub_zero]
    exact ⟨Nat.sub_le _ _, trivial, grade_falls hn⟩
  · have hgrade : ∀ t, r.grade t = c.wc - periodsSince t c.accepted := fun t => by simp [Record.grade, hc]
    simp only [hgrade, periodsSince_self, Nat.sub_zero]
    exact ⟨Nat.sub_le _ _, trivial, grade_falls hn⟩
  · have horder : a.order ≠ b.order := fun h => hab (eq_of_order hl ha hb h)
    rw [precedes_iff, precedes_eq_false_iff]
    omega
  · obtain ⟨f, hf, hmem, hleast⟩ := firstOf_spec now (List.ne_nil_of_mem hr)
    exact ⟨f, hf, hmem, hleast r hr⟩

end Sys2Proof.Machine

/-! ### Stuffing (R77) -/

namespace Sys2Proof.Machine

open Host

/-- Removal undoes insertion, from any run below six. -/
theorem unstuffFrom_stuffFrom (bits : List Bool) {last : Bool} {run : Nat} (h : run ≤ 5) :
    unstuffFrom last run (stuffFrom last run bits) = some bits := by
  induction bits generalizing last run with
  | nil => rfl
  | cons b rest ih =>
    have h6 : run ≠ 6 := by omega
    simp only [stuffFrom]
    split
    · next hb =>
      subst hb
      split
      · next h5 =>
        subst h5
        have hne : (!b) ≠ b := by cases b <;> decide
        simp [unstuffFrom, ih (last := !b) (run := 1) (by decide)]
      · next h5 => simp [unstuffFrom, h6, ih (last := b) (run := run + 1) (by omega)]
    · next hb => simp [unstuffFrom, h6, hb, ih (last := b) (run := 1) (by decide)]

/-- A short run before another bit makes no run of seven. -/
theorem no_seven_of_run {a c : Bool} {l : List Bool} (hc : c ≠ a) (h : ∀ b, ¬ List.replicate 7 b <:+: c :: l) {n : Nat}
    (hn : n ≤ 6) (b : Bool) : ¬ List.replicate 7 b <:+: List.replicate n a ++ c :: l := by
  induction n with
  | zero => exact h b
  | succ n ih =>
    rw [show List.replicate (n + 1) a = a :: List.replicate n a from rfl, List.cons_append, List.infix_cons_iff]
    rintro (hpre | hin)
    · obtain ⟨t, ht⟩ := hpre
      have hget : ∀ i, i < 7 → (a :: (List.replicate n a ++ c :: l))[i]? = some b := fun i hi => by
        rw [← ht, List.getElem?_append_left (by simpa using hi), List.getElem?_replicate_of_lt hi]
      have h0 := hget 0 (by decide)
      have h1 := hget (n + 1) (by omega)
      rw [List.getElem?_cons_zero] at h0
      rw [List.getElem?_cons_succ, List.getElem?_append_right (by simp), List.length_replicate, Nat.sub_self,
        List.getElem?_cons_zero] at h1
      exact hc ((Option.some.inj h1).trans (Option.some.inj h0).symm)
    · exact ih (by omega) hin

/-- No run of seven is sent, the run before counted. -/
theorem no_seven_stuffFrom (bits : List Bool) {last : Bool} {run : Nat} (h : run ≤ 5) (b : Bool) :
    ¬ List.replicate 7 b <:+: List.replicate run last ++ stuffFrom last run bits := by
  induction bits generalizing last run b with
  | nil =>
    intro hin
    have := hin.length_le
    simp only [stuffFrom, List.append_nil, List.length_replicate] at this
    omega
  | cons x rest ih =>
    simp only [stuffFrom]
    split
    · next hx =>
      subst hx
      split
      · next h5 =>
        subst h5
        have hrest := ih (last := !x) (run := 1) (by decide)
        have hne : (!x) ≠ x := by cases x <;> decide
        exact no_seven_of_run hne hrest (n := 6) (Nat.le_refl 6) b
      · next h5 =>
        have hrest := ih (last := x) (run := run + 1) (by omega) b
        rwa [List.replicate_succ' (n := run), List.append_assoc] at hrest
    · next hx => exact no_seven_of_run hx (ih (last := x) (run := 1) (by decide)) (by omega) b

/-- At most one bit is inserted for every five, the run before counted. -/
theorem length_stuffFrom (bits : List Bool) {last : Bool} {run : Nat} (h0 : 1 ≤ run) (h : run ≤ 5) :
    (stuffFrom last run bits).length ≤ bits.length + (bits.length + run - 1) / 5 := by
  induction bits generalizing last run with
  | nil => simp [stuffFrom]
  | cons b rest ih =>
    simp only [stuffFrom]
    split
    · split
      · have := ih (last := !b) (run := 1) (by decide) (by decide)
        simp only [List.length_cons]
        omega
      · have := ih (last := b) (run := run + 1) (by omega) (by omega)
        simp only [List.length_cons]
        omega
    · have := ih (last := b) (run := 1) (by decide) (by decide)
      simp only [List.length_cons]
      omega

/-- The first bit of a region starts a run of one. -/
theorem stuff_cons (b : Bool) (rest : List Bool) : stuff (b :: rest) = b :: stuffFrom b 1 rest := by
  simp only [stuff, stuffFrom]
  split <;> rfl

/-- Settles O14. -/
theorem stuffedRegionReadsBack : Obligations.StuffedRegionReadsBack := by
  unfold Obligations.StuffedRegionReadsBack
  intro bits
  refine ⟨unstuffFrom_stuffFrom bits (Nat.zero_le 5), no_seven_stuffFrom bits (last := true) (Nat.zero_le 5), ?_⟩
  cases bits with
  | nil => exact Nat.le_refl 0
  | cons b rest =>
    have := length_stuffFrom rest (last := b) (Nat.le_refl 1) (by decide)
    rw [stuff_cons, List.length_cons, List.length_cons]
    omega

/-! ### The clamped settings (R169) -/

theorem clampField_range {default low high v : Nat} (h : low ≤ default) (h' : default ≤ high) :
    low ≤ clampField default low high v ∧ clampField default low high v ≤ high := by
  simp only [clampField]
  repeat' split
  all_goals omega

theorem length_digitsOf (l : List Nat) : (digitsOf l).length ≤ l.length := by
  induction l with
  | nil => exact Nat.le_refl 0
  | cons d rest ih =>
    simp only [digitsOf]
    repeat' split
    all_goals simp only [List.length_cons, List.length_nil]; omega

theorem digitsOf_le {l : List Nat} {d : Nat} (h : DialDigit.digit d ∈ digitsOf l) : d ≤ 9 := by
  induction l with
  | nil => cases h
  | cons x rest ih =>
    simp only [digitsOf] at h
    split at h
    · next hx =>
      rcases List.mem_cons.mp h with heq | hmem
      · exact DialDigit.digit.inj heq ▸ hx
      · exact ih hmem
    · split at h
      · exact ih ((List.mem_cons.mp h).resolve_left (by simp))
      · cases h

theorem length_imageNumber (image : BitVec 416) (at_ : Nat) : (imageNumber image at_).length ≤ 20 := by
  refine (length_digitsOf _).trans ?_
  rw [List.length_map, List.length_range]
  exact Nat.min_le_left _ _

/-- Settles O18. -/
theorem settingsAreClamped : Obligations.SettingsAreClamped := by
  unfold Obligations.SettingsAreClamped
  intro image
  have hmax := clampField_range (default := 10) (low := 4) (high := 15) (v := imageByte image 44) (by decide) (by decide)
  have hoff := clampField_range (default := 4) (low := 2) (high := 8) (v := imageByte image 45) (by decide) (by decide)
  have hline := clampField_range (default := 3) (low := 1) (high := 7) (v := imageByte image 46) (by decide) (by decide)
  have hwarm := clampField_range (default := 40) (low := 10) (high := 80) (v := imageByte image 48) (by decide) (by decide)
  have hnumber : ∀ at_ d, DialDigit.digit d ∈ imageNumber image at_ → d ≤ 9 := fun at_ d hd => digitsOf_le hd
  refine ⟨hmax, ?_, hline, Nat.min_le_left _ _, hwarm, fun n => ?_, length_imageNumber _ _, length_imageNumber _ _,
    fun d hd => (List.mem_append.mp hd).elim (hnumber _ d) (hnumber _ d)⟩
  · simp only [imageSettings, imageMaxAttempts]
    omega
  · have hzone : (imageSettings image).zones.get n = imageZone image n := by cases n <;> rfl
    rw [hzone]
    exact ⟨Nat.min_le_left _ _, clampField_range (by decide) (by decide)⟩

end Sys2Proof.Machine

/-! ### Frames as composed and as read (R177, Tables 11-1 to 11-3) -/

namespace Sys2Proof.Machine

open Host

/-- A payload's bytes as one number. -/
def payloadNumber (l : List Byte) : Nat := l.foldl (fun n b => n * 256 + b.toNat) 0

theorem payloadNumber_from (l : List Byte) (n : Nat) :
    l.foldl (fun n b => n * 256 + b.toNat) n = n * 256 ^ l.length + payloadNumber l := by
  induction l generalizing n with
  | nil => simp [payloadNumber]
  | cons b rest ih =>
    have hrest := ih (0 * 256 + b.toNat)
    rw [payloadNumber, List.foldl_cons, List.foldl_cons, ih, hrest, List.length_cons, pow_succ]
    ring

theorem payloadNumber_append (l m : List Byte) :
    payloadNumber (l ++ m) = payloadNumber l * 256 ^ m.length + payloadNumber m := by
  rw [payloadNumber, List.foldl_append, payloadNumber_from]
  rfl

theorem payloadNumber_lt (l : List Byte) : payloadNumber l < 256 ^ l.length := by
  induction l with
  | nil => decide
  | cons b rest ih =>
    have hb : b.toNat < 256 := b.isLt
    have hcons : payloadNumber (b :: rest) = b.toNat * 256 ^ rest.length + payloadNumber rest := by
      rw [← List.singleton_append, payloadNumber_append]
      simp [payloadNumber]
    rw [hcons, List.length_cons, pow_succ]
    nlinarith

/-- A byte of a payload is read where it was put (Table 11-2). -/
theorem payloadByte_packPayload {l : List Byte} {i : Nat} {b : Byte} (w : Nat) (hw : w = 8 * l.length)
    (h : l[i]? = some b) : payloadByte (packPayload w l) i = b.toNat := by
  subst hw
  obtain ⟨hi, hget⟩ := List.getElem?_eq_some_iff.mp h
  have hsplit : l = (l.take i ++ [b]) ++ l.drop (i + 1) := by rw [← hget]; simp
  have hpow : ∀ n, (256 : Nat) ^ n = 2 ^ (8 * n) := fun n => by rw [pow_mul]; norm_num
  have hnumber : (packPayload (8 * l.length) l).toNat = payloadNumber l := by
    rw [packPayload, BitVec.toNat_ofNat, ← hpow]
    exact Nat.mod_eq_of_lt (payloadNumber_lt l)
  have hlen : 8 * l.length - 8 * (i + 1) = 8 * (l.drop (i + 1)).length := by
    rw [List.length_drop]
    omega
  have hlt := payloadNumber_lt (l.drop (i + 1))
  have hb : b.toNat < 256 := b.isLt
  rw [payloadByte, hnumber, hlen, ← hpow]
  generalize hrest : l.drop (i + 1) = rest at hlt hsplit
  rw [hsplit, payloadNumber_append, payloadNumber_append, Nat.mul_comm, Nat.mul_add_div (Nat.pow_pos (by decide)),
    Nat.div_eq_of_lt hlt]
  simp only [payloadNumber, List.length_singleton, List.foldl_cons, List.foldl_nil]
  omega

/-- A bit of a payload is a bit of its byte (Table 11-2). -/
theorem getLsbD_payloadByte {w : Nat} (p : BitVec w) (i : Nat) {j : Nat} (hj : j < 8) :
    p.getLsbD (w - 8 * (i + 1) + j) = decide (payloadByte p i / 2 ^ j % 2 = 1) := by
  rw [← BitVec.testBit_toNat, Nat.testBit_eq_decide_div_mod_eq, pow_add, ← Nat.div_div_eq_div_mul, payloadByte]
  generalize p.toNat / 2 ^ (w - 8 * (i + 1)) = m
  refine decide_eq_decide.mpr ?_
  interval_cases j <;> omega

theorem byte_toNat (n : Nat) : (byte n).toNat = n % 256 := BitVec.toNat_ofNat n 8

theorem ofIndex_index (k : LineId) : LineId.ofIndex k.index = some k := by cases k <;> rfl

theorem index_lt (k : LineId) : k.index < 4 := by cases k <;> decide

theorem reasonOf_code (r : Reason) : reasonOf r.code = some r := by cases r <;> rfl

theorem resultOf_code (r : Result) : resultOf r.code = some r := by cases r <;> rfl

theorem qualifierOf_code (q : Qualifier) : qualifierOf q.code = some q := by cases q <;> rfl

theorem reason_code_lt (r : Reason) : r.code < 256 := by cases r <;> decide

theorem result_code_lt (r : Result) : r.code < 256 := by cases r <;> decide

theorem qualifier_code_lt (q : Qualifier) : q.code < 16 := by cases q <;> decide

theorem flagBit_eq (weight : Nat) (x : Bool) : flagBit weight x = weight * x.toNat := by cases x <;> simp [flagBit]

theorem decide_toNat_eq_one (x : Bool) : decide (x.toNat = 1) = x := by cases x <;> rfl

/-- A value in range is read as it was composed (Table 11-1). -/
theorem value_toNat {n : Nat} (h : n < 8192) : (BitVec.ofNat 13 n).toNat = n := by
  rw [BitVec.toNat_ofNat]
  exact Nat.mod_eq_of_lt h

theorem senderOf_value {n : Nat} (h : n < 8192) : senderOf (BitVec.ofNat 13 n) = n % 16 := by rw [senderOf, value_toNat h]

theorem plainValue_address {address : Nat} (h : 1 ≤ address) (h' : address ≤ 15) :
    plainValue (BitVec.ofNat 13 address) = true ∧ senderOf (BitVec.ofNat 13 address) = address := by
  have hs : senderOf (BitVec.ofNat 13 address) = address := by
    rw [senderOf_value (by omega)]
    omega
  refine ⟨decide_eq_true ⟨?_, ?_⟩, hs⟩
  · rw [hs]
    omega
  · rw [value_toNat (by omega)]
    exact h'

theorem claimFrame_reads {key : Nat} (k : LineId) (barge : Bool) (hk : key < 7168) (ha : key % 16 ≠ 0) :
    readClaim (claimFrame key k barge).value (packPayload 8 (claimFrame key k barge).payload)
      = some ⟨key % 16, key, k⟩ ∧
    (packPayload 8 (claimFrame key k barge).payload).getLsbD 7 = barge := by
  have hb : payloadByte (packPayload 8 (claimFrame key k barge).payload) 0 = 128 * barge.toNat + k.index := by
    rw [payloadByte_packPayload 8 rfl (i := 0) rfl, byte_toNat, flagBit_eq]
    have := index_lt k
    have := barge.toNat_lt
    omega
  have hi := index_lt k
  have hx := barge.toNat_lt
  refine ⟨?_, ?_⟩
  · have hline : (128 * barge.toNat + k.index) % 16 = k.index := by omega
    have hs := senderOf_value (n := key) (by omega)
    have hv := value_toNat (n := key) (by omega)
    simp only [readClaim, hb, hline, ofIndex_index]
    simp only [claimFrame, hs, hv]
    exact if_pos ⟨ha, hk⟩
  · rw [show (7 : Nat) = 8 - 8 * (0 + 1) + 7 from rfl, getLsbD_payloadByte _ 0 (by decide), hb,
      show (128 * barge.toNat + k.index) / 2 ^ 7 % 2 = barge.toNat by omega, decide_toNat_eq_one]

theorem objectFrame_reads {key : Nat} (k : LineId) (holding : Bool) (hk : key < 7168) (ha : key % 16 ≠ 0) :
    readObject (objectFrame key k holding).value (packPayload 16 (objectFrame key k holding).payload)
      = some ⟨key % 16, key, k⟩ ∧
    payloadByte (packPayload 16 (objectFrame key k holding).payload) 1 = if holding then 2 else 1 := by
  have hi := index_lt k
  have hb0 : payloadByte (packPayload 16 (objectFrame key k holding).payload) 0 = k.index := by
    rw [payloadByte_packPayload 16 rfl (i := 0) rfl, byte_toNat]
    omega
  have hb1 : payloadByte (packPayload 16 (objectFrame key k holding).payload) 1 = if holding then 2 else 1 := by
    rw [payloadByte_packPayload 16 rfl (i := 1) rfl, byte_toNat]
    cases holding <;> rfl
  refine ⟨?_, hb1⟩
  have hline : k.index % 16 = k.index := by omega
  have hs := senderOf_value (n := key) (by omega)
  have hv := value_toNat (n := key) (by omega)
  simp only [readObject, hb0, hb1, hline, ofIndex_index]
  simp only [objectFrame, hs, hv]
  exact if_pos ⟨ha, hk, by cases holding <;> simp⟩

theorem releaseFrame_reads {address : Nat} (k : LineId) (reason : Reason) (h : 1 ≤ address) (h' : address ≤ 15) :
    readRelease (releaseFrame address k reason).value (packPayload 16 (releaseFrame address k reason).payload)
      = some ⟨address, k, reason⟩ := by
  have hi := index_lt k
  have hb0 : payloadByte (packPayload 16 (releaseFrame address k reason).payload) 0 = k.index := by
    rw [payloadByte_packPayload 16 rfl (i := 0) rfl, byte_toNat]
    omega
  have hb1 : payloadByte (packPayload 16 (releaseFrame address k reason).payload) 1 = reason.code := by
    rw [payloadByte_packPayload 16 rfl (i := 1) rfl, byte_toNat]
    exact Nat.mod_eq_of_lt (reason_code_lt reason)
  have hline : k.index % 16 = k.index := by omega
  obtain ⟨hplain, hs⟩ := plainValue_address h h'
  simp only [readRelease, hb0, hb1, hline, ofIndex_index, reasonOf_code]
  simp only [releaseFrame, hplain, hs, if_true]

theorem offerFrame_reads {key : Nat} (seq : Byte) (hk : key < 7168) (ha : key % 16 ≠ 0) :
    readOffer (offerFrame key seq).value (packPayload 8 (offerFrame key seq).payload) = some ⟨key % 16, seq⟩ := by
  have hp : packPayload 8 (offerFrame key seq).payload = seq := by
    simp [packPayload, offerFrame]
  have hs := senderOf_value (n := key) (by omega)
  have hv := value_toNat (n := key) (by omega)
  rw [readOffer, hp]
  simp only [offerFrame, hs, hv]
  exact if_pos ⟨ha, hk⟩

theorem acceptFrame_reads {value origin : Nat} (seq : Byte) (hv : value ≤ 1023) (ha : value % 16 ≠ 0) (ho : 1 ≤ origin)
    (ho' : origin ≤ 15) :
    readAccept (acceptFrame value origin seq).value (packPayload 16 (acceptFrame value origin seq).payload)
      = some ⟨value % 16, origin, seq⟩ := by
  have hb0 : payloadByte (packPayload 16 (acceptFrame value origin seq).payload) 0 = origin := by
    rw [payloadByte_packPayload 16 rfl (i := 0) rfl, byte_toNat]
    omega
  have hb1 : payloadByte (packPayload 16 (acceptFrame value origin seq).payload) 1 = seq.toNat :=
    payloadByte_packPayload 16 rfl (i := 1) rfl
  have horigin : origin % 16 = origin := by omega
  have hs := senderOf_value (n := value) (by omega)
  have hn := value_toNat (n := value) (by omega)
  simp only [readAccept, hb0, hb1, horigin, BitVec.ofNat_toNat, BitVec.setWidth_eq]
  simp only [acceptFrame, hs, hn]
  exact if_pos ⟨ha, hv, by omega⟩

theorem carryFrame_reads {now address acceptor : Nat} {account : BitVec 24} (seq : Byte) {r : Record} (h : 1 ≤ address)
    (h' : address ≤ 15) (hc : 1 ≤ acceptor) (hc' : acceptor ≤ 15) (hacc : accountDecimal account = true)
    (hcls : r.cls ≤ 6) (hsrc : 1 ≤ r.source) (hsrc' : r.source ≤ 99) (hrep : r.rep ≤ 9) (hgrade : r.grade now ≤ 31) :
    readCarry (carryFrame now address acceptor account seq r).value
        (packPayload 72 (carryFrame now address acceptor account seq r).payload)
      = some ⟨address, acceptor, seq, account, r.cls, r.qualifier, r.source, r.rep, r.grade now⟩ := by
  have hq := qualifier_code_lt r.qualifier
  obtain ⟨hplain, hs⟩ := plainValue_address h h'
  have hv : (carryFrame now address acceptor account seq r).value = BitVec.ofNat 13 address := rfl
  have hb := fun {i : Nat} {b : Byte} (hi : (carryFrame now address acceptor account seq r).payload[i]? = some b) =>
    payloadByte_packPayload 72 rfl hi
  have hb0 := hb (i := 0) rfl
  have hb1 := hb (i := 1) rfl
  have hb2 := hb (i := 2) rfl
  have hb3 := hb (i := 3) rfl
  have hb4 := hb (i := 4) rfl
  have hb5 := hb (i := 5) rfl
  have hb6 := hb (i := 6) rfl
  have hb7 := hb (i := 7) rfl
  have hb8 := hb (i := 8) rfl
  generalize packPayload 72 (carryFrame now address acceptor account seq r).payload = p at *
  rw [byte_toNat] at hb0 hb2 hb3 hb4 hb5 hb6 hb7 hb8
  have haccount : carryAccount p = account := by
    have hlt : account.toNat < 16777216 := account.isLt
    apply BitVec.eq_of_toNat_eq
    rw [carryAccount, BitVec.toNat_ofNat, hb2, hb3, hb4]
    omega
  rw [Nat.mod_eq_of_lt (by omega)] at hb0 hb5 hb6 hb7 hb8
  have hcode : (16 * r.cls + r.qualifier.code) % 16 = r.qualifier.code := by omega
  have hhigh : (16 * r.cls + r.qualifier.code) / 16 = r.cls := by omega
  have hlow : acceptor % 16 = acceptor := by omega
  simp only [readCarry, hv, hb0, hb1, hb5, hb6, hb7, hb8, hcode, hhigh, hlow, haccount, qualifierOf_code, hs, hplain,
    hacc, BitVec.ofNat_toNat, BitVec.setWidth_eq]
  exact if_pos ⟨trivial, by omega, trivial, hcls, hsrc, hsrc', hrep, hgrade⟩

theorem outcomeFrame_reads {address origin : Nat} (seq : Byte) (result : Result) (h : 1 ≤ address) (h' : address ≤ 15)
    (ho : 1 ≤ origin) (ho' : origin ≤ 15) :
    readOutcome (outcomeFrame address origin seq result).value
        (packPayload 24 (outcomeFrame address origin seq result).payload) = some ⟨address, origin, seq, result⟩ := by
  obtain ⟨hplain, hs⟩ := plainValue_address h h'
  have hv : (outcomeFrame address origin seq result).value = BitVec.ofNat 13 address := rfl
  have hb0 : payloadByte (packPayload 24 (outcomeFrame address origin seq result).payload) 0 = origin := by
    rw [payloadByte_packPayload 24 rfl (i := 0) rfl, byte_toNat]
    omega
  have hb1 : payloadByte (packPayload 24 (outcomeFrame address origin seq result).payload) 1 = seq.toNat :=
    payloadByte_packPayload 24 rfl (i := 1) rfl
  have hb2 : payloadByte (packPayload 24 (outcomeFrame address origin seq result).payload) 2 = result.code := by
    rw [payloadByte_packPayload 24 rfl (i := 2) rfl, byte_toNat]
    exact Nat.mod_eq_of_lt (result_code_lt result)
  have horigin : origin % 16 = origin := by omega
  simp only [readOutcome, hv, hb0, hb1, hb2, horigin, resultOf_code, hplain, hs, BitVec.ofNat_toNat, BitVec.setWidth_eq]
  exact if_pos ⟨trivial, by omega⟩

/-- The flags byte of a STATE as a sum of its bits (Table 11-3). -/
theorem stateFlags_eq (fresh : Bool) (f : Faults) : stateFlags fresh f =
    128 * fresh.toNat + 64 * f.configFault.toNat + 32 * f.addressClash.toNat + 16 * f.fastClockFail.toNat +
      8 * f.commFail.toNat + 4 * f.lineTrouble.toNat + 2 * f.busTrouble.toNat + 1 * f.queueOverflow.toNat := by
  simp only [stateFlags, flagBit_eq]

theorem summary_code_lt (x : Summary) : x.code < 4 := by cases x <;> decide

theorem summaryByte_get (l : Four Summary) (k : LineId) : summaryByte l % 256 / 4 ^ k.index % 4 = (l.get k).code := by
  have h0 := summary_code_lt l.l0
  have h1 := summary_code_lt l.l1
  have h2 := summary_code_lt l.l2
  have h3 := summary_code_lt l.l3
  simp only [summaryByte]
  cases k <;> simp only [LineId.index, Four.get] <;> omega

theorem stateFrame_reads {address queueCount carriedCount : Nat} (fresh : Bool) (f : Faults) (l : Four Summary)
    (h : 1 ≤ address) (h' : address ≤ 15) (hq : queueCount ≤ 24) (hc : carriedCount ≤ 8) (hcq : carriedCount ≤ queueCount) :
    let p := packPayload 32 (stateFrame address fresh f queueCount carriedCount l).payload
    payloadByte p 0 = stateFlags fresh f ∧ payloadByte p 1 = queueCount ∧ payloadByte p 2 = carriedCount ∧
    payloadByte p 3 = summaryByte l % 256 ∧
    readState (stateFrame address fresh f queueCount carriedCount l).value p = some ⟨address, fresh⟩ := by
  intro p
  have hb := fun {i : Nat} {b : Byte} (hi : (stateFrame address fresh f queueCount carriedCount l).payload[i]? = some b) =>
    payloadByte_packPayload 32 rfl hi
  have hb0 : payloadByte p 0 = _ := hb (i := 0) rfl
  have hb1 : payloadByte p 1 = _ := hb (i := 1) rfl
  have hb2 : payloadByte p 2 = _ := hb (i := 2) rfl
  have hb3 : payloadByte p 3 = _ := hb (i := 3) rfl
  have hv : (stateFrame address fresh f queueCount carriedCount l).value = BitVec.ofNat 13 address := rfl
  generalize p = p at *
  have h7 := fresh.toNat_lt
  have h6 := f.configFault.toNat_lt
  have h5 := f.addressClash.toNat_lt
  have h4 := f.fastClockFail.toNat_lt
  have h3 := f.commFail.toNat_lt
  have h2 := f.lineTrouble.toNat_lt
  have h1 := f.busTrouble.toNat_lt
  have h0 := f.queueOverflow.toNat_lt
  have hflags := stateFlags_eq fresh f
  have hlt : stateFlags fresh f < 256 := by omega
  rw [byte_toNat, Nat.mod_eq_of_lt hlt] at hb0
  rw [byte_toNat, Nat.mod_eq_of_lt (by omega)] at hb1 hb2
  rw [byte_toNat] at hb3
  have hmark : decide (128 ≤ stateFlags fresh f) = fresh :=
    (decide_eq_decide.mpr (by omega)).trans (decide_toNat_eq_one fresh)
  obtain ⟨hplain, hs⟩ := plainValue_address h h'
  refine ⟨hb0, hb1, hb2, hb3, ?_⟩
  simp only [readState, hv, hb0, hb1, hb2, hplain, hs, hmark]
  exact if_pos ⟨trivial, hq, hc, hcq⟩

/-- Settles O15: each byte is read where it was put, and holds its fields apart. -/
theorem framesReadBack : Obligations.FramesReadBack := by
  unfold Obligations.FramesReadBack
  refine ⟨fun key k barge hk ha => claimFrame_reads k barge hk ha, fun key k holding hk ha => objectFrame_reads k holding hk ha,
    fun address k reason h h' => releaseFrame_reads k reason h h', fun key seq hk ha => offerFrame_reads seq hk ha,
    fun value origin seq hv ha ho ho' => acceptFrame_reads seq hv ha ho ho',
    fun now address acceptor account seq r h h' hc hc' hacc hcls hsrc hsrc' hrep hgrade =>
      carryFrame_reads seq h h' hc hc' hacc hcls hsrc hsrc' hrep hgrade,
    fun address origin seq result h h' ho ho' => outcomeFrame_reads seq result h h' ho ho',
    fun address fresh f queueCount carriedCount l h h' hq hc hcq => ?_⟩
  obtain ⟨hb0, hb1, hb2, hb3, hread⟩ := stateFrame_reads fresh f l h h' hq hc hcq
  intro p
  have h7 := fresh.toNat_lt
  have h6 := f.configFault.toNat_lt
  have h5 := f.addressClash.toNat_lt
  have h4 := f.fastClockFail.toNat_lt
  have h3 := f.commFail.toNat_lt
  have h2 := f.lineTrouble.toNat_lt
  have h1 := f.busTrouble.toNat_lt
  have h0 := f.queueOverflow.toNat_lt
  have hbit : ∀ (j : Nat) (x : Bool), j < 8 → stateFlags fresh f / 2 ^ j % 2 = x.toNat → p.getLsbD (24 + j) = x :=
    fun j x hj hx => by
      rw [show 24 + j = 32 - 8 * (0 + 1) + j from rfl, getLsbD_payloadByte p 0 hj, hb0, hx, decide_toNat_eq_one]
  have hflags := stateFlags_eq fresh f
  refine ⟨hread, hbit 7 _ (by decide) ?_, hbit 6 _ (by decide) ?_, hbit 5 _ (by decide) ?_, hbit 4 _ (by decide) ?_,
    hbit 3 _ (by decide) ?_, hbit 2 _ (by decide) ?_, hbit 1 _ (by decide) ?_, hbit 0 _ (by decide) ?_, hb1, hb2,
    fun k => ?_⟩
  iterate 8 · rw [hflags]; omega
  · rw [hb3, summaryByte_get]
    cases l.get k <;> rfl

end Sys2Proof.Machine

/-! ### Debounce and the zone pass (R1 to R7, R56) -/

namespace Sys2Proof.Machine

open Host

/-! #### A run of samples of a zone (R3) -/

theorem Zone.sample_band (debounce : Nat) (b : Band) (z : Zone) : (z.sample debounce b).band = b := by
  simp only [Zone.sample]
  split <;> rfl

theorem Zone.sample_run (debounce : Nat) (b : Band) (z : Zone) : (z.sample debounce b).run = z.runAfter debounce b := by
  simp only [Zone.sample]
  split <;> rfl

theorem Zone.sample_debounced (debounce : Nat) (b : Band) (z : Zone) :
    (z.sample debounce b).debounced = if z.runAfter debounce b = debounce then b else z.debounced := by
  simp only [Zone.sample]
  split
  · next h => rw [if_pos h.1]; rfl
  · next h =>
    split
    · next hr => exact (not_not.mp fun hb => h ⟨hr, Ne.symm hb⟩)
    · rfl

/-- After n + 1 samples of a band the run is theirs at least, and at the debounce count the band is the debounced state. -/
theorem Zone.samples_run {debounce : Nat} (hd : 1 ≤ debounce) (b : Band) (z : Zone) (n : Nat) :
    let y := (Zone.sample debounce b)^[n + 1] z
    y.band = b ∧ min (n + 1) debounce ≤ y.run ∧ y.run ≤ debounce ∧ (y.run = debounce → y.debounced = b) := by
  have hset : ∀ y : Zone, (y.sample debounce b).run = debounce → (y.sample debounce b).debounced = b := fun y hr => by
    rw [Zone.sample_debounced, if_pos (by rw [← Zone.sample_run, hr])]
  induction n with
  | zero =>
    have hrun : min 1 debounce ≤ (z.sample debounce b).run ∧ (z.sample debounce b).run ≤ debounce := by
      rw [Zone.sample_run, Zone.runAfter]
      split <;> omega
    exact ⟨Zone.sample_band _ _ _, hrun.1, hrun.2, hset z⟩
  | succ n ih =>
    obtain ⟨hband, hleast, hmost, _⟩ := ih
    rw [Function.iterate_succ_apply']
    refine ⟨Zone.sample_band _ _ _, ?_, ?_, hset _⟩ <;>
      rw [Zone.sample_run, Zone.runAfter, if_pos hband.symm] <;> omega

/-- Samples of a new band, fewer than the debounce count, are counted and leave the debounced state. -/
theorem Zone.samples_short {debounce : Nat} {c : Band} {z : Zone} (hc : c ≠ z.band) {n : Nat} (hn : n < debounce) :
    ((Zone.sample debounce c)^[n] z).debounced = z.debounced ∧
    (1 ≤ n → ((Zone.sample debounce c)^[n] z).band = c ∧ ((Zone.sample debounce c)^[n] z).run = n) := by
  induction n with
  | zero => exact ⟨rfl, fun h => absurd h (by decide)⟩
  | succ n ih =>
    obtain ⟨hsame, hrun⟩ := ih (by omega)
    rw [Function.iterate_succ_apply']
    have hafter : Zone.runAfter debounce c ((Zone.sample debounce c)^[n] z) = n + 1 := by
      cases n with
      | zero => exact if_neg hc
      | succ n =>
        obtain ⟨hband, hr⟩ := hrun (by omega)
        rw [Zone.runAfter, if_pos hband.symm, hr]
        omega
    refine ⟨?_, fun _ => ⟨Zone.sample_band _ _ _, by rw [Zone.sample_run, hafter]⟩⟩
    rw [Zone.sample_debounced, hafter, if_neg (by omega), hsame]

/-! #### A run of samples of a line (R56) -/

theorem Entry.sample_band (b : LineBand) (e : Entry) : (e.sample b).band = some b := by
  simp only [Entry.sample]
  split <;> rfl

theorem Entry.sample_run (b : LineBand) (e : Entry) : (e.sample b).run = e.runAfter b := by
  simp only [Entry.sample]
  split <;> rfl

theorem Entry.sample_sense (b : LineBand) (e : Entry) :
    (e.sample b).sense = if e.runAfter b = 8 then some b else e.sense := by
  simp only [Entry.sample]
  split
  · next h => rw [if_pos h.1]; rfl
  · next h =>
    split
    · next hr => exact (not_not.mp fun hb => h ⟨hr, hb⟩)
    · rfl

theorem Entry.samples_run (b : LineBand) (e : Entry) (n : Nat) :
    let y := (Entry.sample b)^[n + 1] e
    y.band = some b ∧ min (n + 1) 8 ≤ y.run ∧ y.run ≤ 8 ∧ (y.run = 8 → y.sense = some b) := by
  have hset : ∀ y : Entry, (y.sample b).run = 8 → (y.sample b).sense = some b := fun y hr => by
    rw [Entry.sample_sense, if_pos (by rw [← Entry.sample_run, hr])]
  induction n with
  | zero =>
    have hrun : min 1 8 ≤ (e.sample b).run ∧ (e.sample b).run ≤ 8 := by
      rw [Entry.sample_run, Entry.runAfter]
      split <;> omega
    exact ⟨Entry.sample_band _ _, hrun.1, hrun.2, hset e⟩
  | succ n ih =>
    obtain ⟨hband, hleast, hmost, _⟩ := ih
    rw [Function.iterate_succ_apply']
    refine ⟨Entry.sample_band _ _, ?_, ?_, hset _⟩ <;>
      rw [Entry.sample_run, Entry.runAfter, if_pos hband] <;> omega

theorem Entry.samples_short {c : LineBand} {e : Entry} (hc : e.band ≠ some c) {n : Nat} (hn : n < 8) :
    ((Entry.sample c)^[n] e).sense = e.sense ∧
    (1 ≤ n → ((Entry.sample c)^[n] e).band = some c ∧ ((Entry.sample c)^[n] e).run = n) := by
  induction n with
  | zero => exact ⟨rfl, fun h => absurd h (by decide)⟩
  | succ n ih =>
    obtain ⟨hsame, hrun⟩ := ih (by omega)
    rw [Function.iterate_succ_apply']
    have hafter : Entry.runAfter c ((Entry.sample c)^[n] e) = n + 1 := by
      cases n with
      | zero => exact if_neg hc
      | succ n =>
        obtain ⟨hband, hr⟩ := hrun (by omega)
        rw [Entry.runAfter, if_pos hband, hr]
        omega
    refine ⟨?_, fun _ => ⟨Entry.sample_band _ _, by rw [Entry.sample_run, hafter]⟩⟩
    rw [Entry.sample_sense, hafter, if_neg (by omega), hsame]

/-- Settles O21: the run reaches the debounce count with that many samples of one band, and no sooner. -/
theorem samplesDebounce : Obligations.SamplesDebounce := by
  unfold Obligations.SamplesDebounce
  refine ⟨fun z b c debounce hd => ⟨?_, fun hc => ?_, fun n hn hc => (Zone.samples_short hc hn).1⟩,
    fun e b c => ⟨?_, fun hc => ?_, fun n hn hc => (Entry.samples_short hc hn).1⟩⟩
  · obtain ⟨n, rfl⟩ := Nat.exists_eq_add_of_le' hd
    obtain ⟨_, hleast, hmost, hset⟩ := Zone.samples_run hd b z n
    exact hset (by omega)
  · rw [Zone.sample_run]
    exact if_neg hc
  · obtain ⟨_, hleast, hmost, hset⟩ := Entry.samples_run b e 7
    exact hset (by omega)
  · rw [Entry.sample_run]
    exact if_neg hc

/-! #### The pass (R2 to R7) -/

/-- The conditions of a zone in agreement with its debounced state (R4). -/
theorem Zone.Consistent.conditions {z : Zone} (h : z.Consistent) :
    z.alarm = decide (z.debounced = .active) ∧ z.trouble = decide (z.debounced = .opened ∨ z.debounced = .short) := by
  obtain ⟨ha, ht⟩ := h
  exact ⟨Bool.eq_iff_iff.mpr (by rw [ha, decide_eq_true_iff]), Bool.eq_iff_iff.mpr (by rw [ht, decide_eq_true_iff])⟩

/-- Events handed over in order, but in CONFIG_FAULT (R7, R15). -/
theorem State.raiseAll_eq (events : List Event) (s : State) : s.raiseAll events = { s with
    queue := if s.loader.configFault then s.queue else events.foldl (fun q e => q.admitEvent s.time e) s.queue } := by
  unfold State.raiseAll
  by_cases hf : s.loader.configFault = true
  · simp only [hf, if_true]
    induction events with
    | nil => rfl
    | cons e rest ih => rw [List.foldl_cons, State.raise, if_pos hf]; exact ih
  · simp only [hf]
    induction events generalizing s with
    | nil => rfl
    | cons e rest ih =>
      rw [List.foldl_cons, State.raise, if_neg hf]
      exact ih { s with queue := s.queue.admitEvent s.time e } hf

theorem exec_zoneSamplePass {loops : Eight LoopMeasure} {s : State} (h : s.zone.sampling = true) :
    ∃ t, exec (.zoneSamplePass loops) s = .next t ∧
      State.Settled (({ s with zone := { s.zone with zones := Eight.ofZone (zoneAfter loops s) } } : State).raiseAll
        (passEvents loops s)) t := by
  change ∃ t, execZoneSamplePass loops s = .next t ∧ _
  unfold execZoneSamplePass
  rw [if_pos h]
  by_cases he : (passEvents loops s).isEmpty = true
  · refine ⟨_, if_pos he, ?_⟩
    rw [List.isEmpty_iff.mp he]
    exact .refl _
  · exact ⟨_, if_neg he, State.settle_settled _ _⟩

/-- Settles O22. -/
theorem zonePassCompletes : Obligations.ZonePassCompletes := by
  unfold Obligations.ZonePassCompletes
  refine ⟨fun n settings old new ho hn => ?_, fun loops s => ?_, fun loops s hs => ?_⟩
  · obtain ⟨hoa, hot⟩ := ho.conditions
    obtain ⟨hna, hnt⟩ := hn.conditions
    simp only [zoneEvents, hoa, hot, hna, hnt]
    cases old.debounced <;> cases new.debounced <;> simp
  · have hevents : ∀ n, zoneEvents n (s.loader.settings.zones.get n) (s.zone.zones.get n) (zoneAfter loops s n) =
        if (s.loader.settings.zones.get n).inUse then zoneEvents n (s.loader.settings.zones.get n) (s.zone.zones.get n)
          ((s.zone.zones.get n).sample (s.loader.settings.zones.get n).debounce (loopBand (loops.get n))) else [] :=
      fun n => by
        unfold zoneAfter
        split
        · rfl
        · exact zoneEvents_self _ _ _
    simp only [passEvents, hevents]
    simp only [ZoneId.all, List.map_cons, List.map_nil, List.flatten_cons, List.flatten_nil, List.append_nil,
      List.append_assoc]
  · obtain ⟨t, ht, hset⟩ := exec_zoneSamplePass (loops := loops) hs
    rw [State.raiseAll_eq] at hset
    exact ⟨t, ht, hset⟩

end Sys2Proof.Machine

/-! ### The supervision timers and the line pass (R9 to R13, R55 to R58, R70, R129) -/

namespace Sys2Proof.Machine

open Host

/-! #### What later proofs read of a settled state -/

/-- A field of an entry that is not of the own claim is left by the end of a step (R66). -/
theorem State.Settled.field {s t : State} (h : State.Settled s t) {α : Type} (f : Entry → α) (hf : ∀ e, f e.others = f e)
    (k : LineId) : f (t.entry k) = f (s.entry k) := by
  rw [← hf (t.entry k), ← hf (s.entry k), h.entries k]

/-- A field of an entry that is neither F nor the trouble flag is left by a hang-up (R68, R70). -/
theorem State.HungUp.field {k : LineId} {o : CallOutcome} {s t : State} (h : State.HungUp k o s t) {α : Type}
    (f : Entry → α) (hf : ∀ e failures trouble, f { e with failures := failures, trouble := trouble } = f e)
    (j : LineId) : f (t.entry j) = f (s.entry j) := by
  have := congrArg f (h.entries j)
  rw [hf] at this
  exact this

theorem Entry.inTrouble_iff (threshold : Nat) (e : Entry) : e.inTrouble threshold = true ↔ e.Troubled threshold := by
  simp [Entry.inTrouble, Entry.Troubled]

/-- Recomputed trouble flags are right, and stay so through the end of the step (R70). -/
theorem State.refreshTrouble_flagsRight (s : State) : s.refreshTrouble.FlagsRight := fun j => by
  rw [State.refreshTrouble_entry, State.refreshTrouble_loader, ← Entry.inTrouble_iff]
  rfl

theorem State.Settled.flagsRight {s t : State} (h : State.Settled s t) (hs : s.FlagsRight) : t.FlagsRight := fun j => by
  rw [h.field Entry.trouble (fun _ => rfl), hs j, h.loader]
  exact iff_of_eq (h.field (Entry.Troubled s.loader.settings.lineThreshold) (fun _ => rfl) j).symm

/-- One event handed to the queue, but in CONFIG_FAULT (R15, R16). -/
theorem State.raise_eq (e : Event) (s : State) : s.raise e = { s with
    queue := if s.loader.configFault then s.queue else s.queue.admitEvent s.time e } := State.raiseAll_eq [e] s

theorem State.refreshTrouble_trouble (s : State) (k : LineId) :
    (s.refreshTrouble.entry k).trouble = (s.entry k).inTrouble s.loader.settings.lineThreshold := by
  rw [State.refreshTrouble_entry]

/-- With one line out of trouble and no other flag changed, its CLEARED event is admitted (R9). -/
theorem State.refreshTrouble_cleared (k : LineId) (s : State) (hf : s.loader.configFault = false)
    (h0 : (s.entry k).trouble = true) (h1 : (s.refreshTrouble.entry k).trouble = false)
    (h : ∀ j, j ≠ k → (s.refreshTrouble.entry j).trouble = (s.entry j).trouble) :
    s.refreshTrouble.queue = s.queue.admitEvent s.time ⟨90 + k.index, .line, .cleared, 5⟩ := by
  rw [State.refreshTrouble_trouble] at h1
  have hchanges : s.troubleChanges = [k] := by
    have hp : ∀ j, decide ((s.entry j).trouble ≠ (s.entry j).inTrouble s.loader.settings.lineThreshold)
        = decide (j = k) := fun j => by
      by_cases hj : j = k
      · subst hj
        simp [h0, h1]
      · have hsame := h j hj
        rw [State.refreshTrouble_trouble] at hsame
        simp [hj, hsame]
    simp only [State.troubleChanges, hp]
    cases k <;> decide
  simp [State.refreshTrouble, State.troubleEvents, hchanges, State.raiseAll, State.raise, hf, h1, lineEvent]

theorem mem_toList {f : Four Entry} {e : Entry} : e ∈ f.toList ↔ ∃ k, f.get k = e := by
  simp only [Four.toList, List.mem_cons, List.not_mem_nil, or_false]
  constructor
  · rintro (h | h | h | h)
    exacts [⟨.l0, h.symm⟩, ⟨.l1, h.symm⟩, ⟨.l2, h.symm⟩, ⟨.l3, h.symm⟩]
  · rintro ⟨k, rfl⟩
    cases k <;> simp [Four.get]

theorem everyWiredDead_iff (v : LineView) : v.everyWiredDead = true ↔
    (∃ k, (v.get k).wired = true) ∧ ∀ k, (v.get k).wired = true → (v.get k).dead = true := by
  simp only [LineView.everyWiredDead, LineView.anyWired, Bool.and_eq_true, List.any_eq_true, List.all_eq_true, mem_toList,
    forall_exists_index, forall_apply_eq_imp_iff, Bool.or_eq_true, Bool.not_eq_true', exists_exists_eq_and]
  refine and_congr Iff.rfl (forall_congr' fun k => ?_)
  change (v.get k).wired = false ∨ (v.get k).dead = true ↔ _
  cases (v.get k).wired <;> simp

/-! #### The dead timer (R57, R58) -/

/-- The station with a dead line, before the trouble flags are recomputed. -/
def State.lineDead (k : LineId) (s : State) : State :=
  { s with view := (s.view.update k fun e => { e with dead := true, deadTimer := false }).timeAllDead }

theorem State.lineDead_entry (k j : LineId) (s : State) : (s.lineDead k).entry j =
    if j = k then { s.entry j with dead := true, deadTimer := false } else s.entry j :=
  LineView.get_update s.view j k fun e => { e with dead := true, deadTimer := false }

theorem exec_deadTimerExpiry {k : LineId} {s : State} (h : (s.entry k).deadTimer = true) :
    exec (.deadTimerExpiry k) s = .next (s.settle (s.lineDead k).refreshTrouble) := if_pos h

/-- A line that goes dead is in trouble; each other flag is recomputed (R70). -/
theorem lineDead_inTrouble (k j : LineId) (s : State) :
    ((s.lineDead k).entry j).inTrouble s.loader.settings.lineThreshold = true ↔ (s.entry j).wired = true ∧
      (s.loader.settings.lineThreshold ≤ (s.entry j).failures ∨ j = k ∨ (s.entry j).dead = true) := by
  rw [State.lineDead_entry, Entry.inTrouble_iff, Entry.Troubled]
  split
  · next hj => simp [hj]
  · next hj => simp [hj]

/-- With the last live wired line dead, the all-dead timer runs or has run out (R58). -/
theorem lineDead_allDead {k : LineId} {s : State} (hw : (s.entry k).wired = true)
    (h : ∀ j, j ≠ k → (s.entry j).wired = true → (s.entry j).dead = true) : (s.lineDead k).view.allDead ≠ .absent := by
  have hevery : (s.view.update k fun e => { e with dead := true, deadTimer := false }).everyWiredDead = true := by
    refine (everyWiredDead_iff _).mpr ⟨⟨k, by rw [LineView.get_update_same]; exact hw⟩, fun j hj => ?_⟩
    rw [LineView.get_update] at hj ⊢
    split
    · rfl
    · next hjk =>
      rw [if_neg hjk] at hj
      exact h j hjk hj
  simp only [State.lineDead, LineView.timeAllDead, hevery, if_true]
  split <;> simp_all

/-- Settles O23. -/
theorem supervisionTimersComplete : Obligations.SupervisionTimersComplete := by
  unfold Obligations.SupervisionTimersComplete
  refine ⟨fun s h => ?_, fun s h => ?_, fun k s h => ?_, fun s h => ?_⟩
  · have hset := State.settle_settled s (State.raise periodicTest
      { s with zone := { s.zone with testTimer := testInterval s.loader.settings.testHours } })
    exact ⟨_, if_pos h, State.raise_eq .. ▸ hset⟩
  · have hset := State.settle_settled s (State.raise busNew
      { s with zone := { s.zone with busTimer := false, busTrouble := true } })
    exact ⟨_, if_pos h, State.raise_eq .. ▸ hset⟩
  · intro troubled
    have hset := State.settle_settled s (s.lineDead k).refreshTrouble
    refine ⟨_, exec_deadTimerExpiry h, ?_⟩
    generalize s.settle (s.lineDead k).refreshTrouble = t at hset
    have hself : (s.lineDead k).entry k = { s.entry k with dead := true, deadTimer := false } := by
      rw [State.lineDead_entry, if_pos rfl]
    have hflag : ∀ j, ((s.lineDead k).refreshTrouble.entry j).trouble = true ↔ troubled j := fun j => by
      rw [State.refreshTrouble_trouble]
      exact lineDead_inTrouble k j s
    have htrouble : ∀ j, (t.entry j).trouble = true ↔ troubled j := fun j => by
      rw [hset.field Entry.trouble (fun _ => rfl)]
      exact hflag j
    have hold : ∀ j, ((s.lineDead k).entry j).trouble = (s.entry j).trouble := fun j => by
      rw [State.lineDead_entry]
      split <;> rfl
    have hsame : ∀ j, ((s.entry j).trouble = true ↔ troubled j) →
        ((s.lineDead k).refreshTrouble.entry j).trouble = ((s.lineDead k).entry j).trouble := fun j hj => by
      rw [hold j]
      exact Bool.eq_iff_iff.mpr ((hflag j).trans hj.symm)
    refine ⟨?_, ?_, fun hw => ⟨(htrouble k).mpr ⟨hw, .inr (.inl rfl)⟩, fun hall => ?_⟩, htrouble, fun hw h0 hf hothers => ?_,
      fun hall => ?_, hset⟩
    · rw [hset.field Entry.dead (fun _ => rfl), State.refreshTrouble_entry, hself]
    · rw [hset.field Entry.deadTimer (fun _ => rfl), State.refreshTrouble_entry, hself]
    · rw [hset.allDead, State.refreshTrouble_allDead]
      exact lineDead_allDead hw hall
    · have htold := State.refreshTrouble_told k (s.lineDead k) hf ((hold k).trans h0)
        ((hflag k).mpr ⟨hw, .inr (.inl rfl)⟩) fun j hj => hsame j (hothers j hj)
      exact htold ▸ hset.sameButStates
    · have hquiet := State.refreshTrouble_quiet (s.lineDead k) fun j => hsame j (hall j)
      exact hquiet ▸ hset.sameButStates
  · have hset := State.settle_settled s { s with view := { s.view with allDead := .passed } }
    refine ⟨_, if_pos h, hset.allDead, ?_, hset⟩
    simp [State.cannotDial, hset.allDead]

end Sys2Proof.Machine

/-! ### The line pass (R55 to R58, R64, R70, R129) -/

namespace Sys2Proof.Machine

open Host

/-- An entry after a pass (R56). -/
def State.sampledEntry (volts : Four Int) (s : State) (k : LineId) : Entry :=
  if (s.entry k).wired then (s.entry k).sample (lineBand (volts.get k)) else s.entry k

theorem State.linesSampled_entry (volts : Four Int) (s : State) (k : LineId) :
    (s.linesSampled volts).entry k = s.sampledEntry volts k := Four.get_mapLines _ _ k

theorem State.linesTimed_entry (volts : Four Int) (s : State) (k : LineId) :
    (s.linesTimed volts).entry k = s.sampledEntry volts k := Four.get_mapLines _ _ k

theorem senseChanged_iff (volts : Four Int) (s : State) :
    senseChanged s.view.entries (sampledEntries volts s) = true ↔
      ∃ k, (s.sampledEntry volts k).sense ≠ (s.entry k).sense := by
  have hget : ∀ k, (sampledEntries volts s).get k = s.sampledEntry volts k := fun k => Four.get_mapLines _ _ k
  simp only [senseChanged, List.any_eq_true, decide_eq_true_iff, hget]
  exact ⟨fun ⟨k, _, hk⟩ => ⟨k, Ne.symm hk⟩, fun ⟨k, hk⟩ => ⟨k, by cases k <;> decide, Ne.symm hk⟩⟩

/-- The line of the call, its HOOK closed, turns to a sense in the pass (R129). -/
def State.TurnedTo (volts : Four Int) (s : State) (b : LineBand) : Prop :=
  ∃ k, s.call.line = some k ∧ s.call.hook.get k = true ∧ (s.entry k).sense ≠ some b ∧
    (s.sampledEntry volts k).sense = some b

theorem heldLineTurned_iff (volts : Four Int) (s : State) (b : LineBand) :
    heldLineTurned b s (s.linesTimed volts) = true ↔ s.TurnedTo volts b := by
  unfold heldLineTurned State.TurnedTo
  cases hk : s.call.line with
  | none => simp
  | some k =>
    simp only [Bool.and_eq_true, decide_eq_true_iff, State.hookClosed, State.linesTimed_entry, Option.some.injEq,
      exists_eq_left']
    constructor
    · rintro ⟨⟨hh, hne⟩, hb⟩
      exact ⟨hh, hb ▸ hne, hb⟩
    · rintro ⟨hh, hne, hb⟩
      exact ⟨⟨hh, hb.symm ▸ hne⟩, hb⟩

theorem State.TurnedTo.senseChanged {volts : Four Int} {s : State} {b : LineBand} (h : s.TurnedTo volts b) :
    senseChanged s.view.entries (sampledEntries volts s) = true := by
  obtain ⟨k, _, _, hne, hb⟩ := h
  exact (senseChanged_iff volts s).mpr ⟨k, fun heq => hne (heq ▸ hb)⟩

theorem State.TurnedTo.unique {volts : Four Int} {s : State} {b c : LineBand} (h : s.TurnedTo volts b)
    (g : s.TurnedTo volts c) : b = c := by
  obtain ⟨k, hk, _, _, hb⟩ := h
  obtain ⟨j, hj, _, _, hc⟩ := g
  obtain rfl := Option.some.inj (hk.symm.trans hj)
  exact Option.some.inj (hb.symm.trans hc)

/-- The watch: NO_BATTERY starts the line-lost timer, a turn to OFF_HOOK removes it, no turn leaves it (R129). -/
theorem watchLine_call (volts : Four Int) (s : State) :
    (s.TurnedTo volts .noBattery → (watchLine s (s.linesTimed volts)).call = { s.call with lineLost := true }) ∧
    (s.TurnedTo volts .offHook → (watchLine s (s.linesTimed volts)).call = { s.call with lineLost := false }) ∧
    (¬ s.TurnedTo volts .noBattery → ¬ s.TurnedTo volts .offHook →
      (watchLine s (s.linesTimed volts)).call = s.call) := by
  unfold watchLine
  refine ⟨fun h => ?_, fun h => ?_, fun h g => ?_⟩
  · rw [if_pos ((heldLineTurned_iff _ _ _).mpr h)]
    rfl
  · rw [if_neg fun hn => absurd (((heldLineTurned_iff _ _ _).mp hn).unique h) (by decide),
      if_pos ((heldLineTurned_iff _ _ _).mpr h)]
    rfl
  · rw [if_neg (mt (heldLineTurned_iff _ _ _).mp h), if_neg (mt (heldLineTurned_iff _ _ _).mp g)]
    rfl

/-- Only a change of the sense clears a dead flag (R57). -/
theorem State.sampledEntry_dead {volts : Four Int} {s : State} {k : LineId} (h : (s.entry k).dead = true)
    (hn : (s.sampledEntry volts k).dead = false) : (s.sampledEntry volts k).sense ≠ (s.entry k).sense := by
  intro hsense
  have hsame : (s.sampledEntry volts k).dead = (s.entry k).dead := by
    unfold State.sampledEntry at hsense ⊢
    split
    · next hw =>
      rw [if_pos hw] at hsense
      rw [Entry.sample_of_sense hsense]
    · rfl
  exact absurd (h.symm.trans (hsame.symm.trans hn)) (by decide)

theorem State.sampledEntry_keeps (volts : Four Int) (s : State) (k : LineId) :
    (s.sampledEntry volts k).holder = (s.entry k).holder ∧ (s.sampledEntry volts k).pending = (s.entry k).pending ∧
    (s.sampledEntry volts k).wired = (s.entry k).wired ∧ (s.sampledEntry volts k).occupancy = (s.entry k).occupancy ∧
    (s.sampledEntry volts k).failures = (s.entry k).failures ∧
    (s.sampledEntry volts k).trouble = (s.entry k).trouble := by
  simp only [State.sampledEntry, Entry.sample]
  repeat' split
  all_goals exact ⟨rfl, rfl, rfl, rfl, rfl, rfl⟩

/-- The all-dead timer is absent with a wired line not dead (R58). -/
theorem State.linesTimed_allDead {volts : Four Int} {s : State} {k : LineId} (hw : (s.entry k).wired = true)
    (hn : (s.sampledEntry volts k).dead = false) : (s.linesTimed volts).view.allDead = .absent := by
  have hnot : (s.linesSampled volts).view.everyWiredDead = false := by
    by_contra hall
    obtain ⟨_, hdead⟩ := (everyWiredDead_iff _).mp (Bool.not_eq_false _ ▸ hall)
    have hwired : ((s.linesSampled volts).entry k).wired = true := by
      rw [State.linesSampled_entry, (s.sampledEntry_keeps volts k).2.2.1, hw]
    have hd : ((s.linesSampled volts).entry k).dead = true := hdead k hwired
    rw [State.linesSampled_entry, hn] at hd
    exact absurd hd (by decide)
  simp [State.linesTimed, LineView.timeAllDead, hnot]

/-- The watch writes the call alone. -/
theorem watchLine_eq (volts : Four Int) (s : State) : watchLine s (s.linesTimed volts) =
    { s.linesTimed volts with call := (watchLine s (s.linesTimed volts)).call } := by
  unfold watchLine
  repeat' split
  all_goals rfl

/-- What every pass leaves of the lines and the station, whichever of its three ends it has. -/
structure State.Passed (volts : Four Int) (s t : State) : Prop where
  field : ∀ {α : Type} (f : Entry → α), (∀ e, f e.others = f e) →
    (∀ e failures trouble, f { e with failures := failures, trouble := trouble } = f e) →
    ∀ k, f (t.entry k) = f (s.sampledEntry volts k)
  loader : t.loader = s.loader
  time : t.time = s.time
  zone : t.zone = s.zone
  wire : { t.rbc with slots := s.rbc.slots, owed := s.rbc.owed } = s.rbc
  outcomes : t.carry.outcomes.length = s.carry.outcomes.length

/-- The pass with the watch, before the end of the step. -/
def State.linesWatched (volts : Four Int) (s : State) : State := (watchLine s (s.linesTimed volts)).refreshTrouble

theorem State.linesWatched_entry (volts : Four Int) (s : State) (k : LineId) : (s.linesWatched volts).entry k =
    { s.sampledEntry volts k with
      trouble := (s.sampledEntry volts k).inTrouble s.loader.settings.lineThreshold } := by
  rw [State.linesWatched, State.refreshTrouble_entry, watchLine_eq]
  change ({ (s.linesTimed volts).entry k with
    trouble := ((s.linesTimed volts).entry k).inTrouble s.loader.settings.lineThreshold } : Entry) = _
  rw [State.linesTimed_entry]

theorem State.linesWatched_settled (volts : Four Int) {s t : State} (h : State.Settled (s.linesWatched volts) t) :
    s.Passed volts t := by
  have hcarry : (s.linesWatched volts).carry = s.carry := by
    rw [State.linesWatched, State.refreshTrouble_carry, watchLine_eq]
    rfl
  have hrbc : (s.linesWatched volts).rbc = s.rbc := by
    rw [State.linesWatched, State.refreshTrouble_rbc, watchLine_eq]
    rfl
  refine ⟨fun f hf hg k => ?_, ?_, ?_, ?_, hrbc ▸ h.wire, ?_⟩
  · rw [h.field f hf, State.linesWatched_entry]
    exact hg _ _ _
  · rw [h.loader, State.linesWatched, State.refreshTrouble_loader, watchLine_eq]
    rfl
  · rw [h.time, State.linesWatched, State.refreshTrouble_time, watchLine_eq]
    rfl
  · rw [h.zone, State.linesWatched, State.refreshTrouble_zone, watchLine_eq]
    rfl
  · have := congrArg List.length h.outcomes
    rw [List.length_map, List.length_map, hcarry] at this
    exact this

theorem State.linesLost_hungUp (volts : Four Int) {k : LineId} {s t : State}
    (h : State.HungUp k .lineLost (s.linesTimed volts) t) : s.Passed volts t := by
  refine ⟨fun f hf hg j => ?_, h.loader, h.time, h.zone, h.wire, ?_⟩
  · rw [h.field f hg, State.linesTimed_entry]
  · have := congrArg List.length (h.outcomes (by decide))
    rw [List.length_map, List.length_map] at this
    exact this

theorem State.linesSampled_passed (volts : Four Int) (s : State) : s.Passed volts (s.linesSampled volts) :=
  ⟨fun f _ _ k => by rw [State.linesSampled_entry], rfl, rfl, rfl, rfl, rfl⟩

/-- The three ends of a pass. -/
theorem exec_lineSamplePass {volts : Four Int} {s : State} (h : s.loader.verified = true) :
    ∃ t, exec (.lineSamplePass volts) s = .next t ∧
      ((senseChanged s.view.entries (sampledEntries volts s) = false ∧ t = s.linesSampled volts) ∨
       (senseChanged s.view.entries (sampledEntries volts s) = true ∧ ¬ s.TurnedTo volts .onHook ∧
          State.Settled (s.linesWatched volts) t) ∨
       (∃ k, s.call.line = some k ∧ s.TurnedTo volts .onHook ∧ State.HungUp k .lineLost (s.linesTimed volts) t)) := by
  change ∃ t, execLineSamplePass volts s = .next t ∧ _
  unfold execLineSamplePass
  rw [if_pos h]
  by_cases hc : senseChanged s.view.entries (sampledEntries volts s) = true
  · by_cases ht : s.TurnedTo volts .onHook
    · obtain ⟨k, hk, _⟩ := id ht
      refine ⟨s.settle ((s.linesTimed volts).hangUp .lineLost), ?_, .inr (.inr ⟨k, hk, ht, ?_⟩)⟩
      · exact (if_pos hc).trans (if_pos ((heldLineTurned_iff _ _ _).mpr ht))
      · exact (State.hangUp_hungUp k .lineLost (s.linesTimed volts) hk).settled (State.settle_settled _ _)
    · refine ⟨s.settle (s.linesWatched volts), ?_, .inr (.inl ⟨hc, ht, State.settle_settled _ _⟩)⟩
      exact (if_pos hc).trans (if_neg (mt (heldLineTurned_iff _ _ _).mp ht))
  · exact ⟨s.linesSampled volts, if_neg hc, .inl ⟨Bool.eq_false_iff.mpr hc, rfl⟩⟩

theorem State.linesWatched_call (volts : Four Int) (s : State) :
    (s.linesWatched volts).call = (watchLine s (s.linesTimed volts)).call ∧
    (s.linesWatched volts).call.state = s.call.state ∧ (s.linesWatched volts).tone = s.tone := by
  rw [State.linesWatched, State.refreshTrouble_call, State.refreshTrouble_tone]
  unfold watchLine
  repeat' split
  all_goals exact ⟨rfl, rfl, rfl⟩

/-- The state of the call's loss: the pass alone (R129). -/
theorem State.linesTimed_eq (volts : Four Int) (s : State) : s.linesTimed volts =
    { s with view := ⟨s.view.entries.mapLines fun j _ => s.sampledEntry volts j, (s.linesTimed volts).view.allDead⟩ } := by
  have hentries : sampledEntries volts s = s.view.entries.mapLines fun j _ => s.sampledEntry volts j :=
    Four.ext_get fun k => (Four.get_mapLines _ _ k).trans
      (Four.get_mapLines (fun j _ => s.sampledEntry volts j) s.view.entries k).symm
  rw [← hentries]
  rfl

/-- The flags after a pass that changed a sense (R70). -/
theorem State.Passed.trouble {volts : Four Int} {s t : State} (h : s.Passed volts t) (hf : t.FlagsRight) (k : LineId) :
    (t.entry k).trouble = true ↔ (s.entry k).wired = true ∧
      (s.loader.settings.lineThreshold ≤ (t.entry k).failures ∨ (s.sampledEntry volts k).dead = true) := by
  rw [hf k, h.loader, Entry.Troubled, h.field Entry.wired (fun _ => rfl) (fun _ _ _ => rfl),
    h.field Entry.dead (fun _ => rfl) (fun _ _ _ => rfl), (s.sampledEntry_keeps volts k).2.2.1]

/-- A line that leaves trouble as its dead flag clears, alone in it, raises its CLEARED event (R9). -/
theorem State.linesWatched_cleared {volts : Four Int} {s : State} {k : LineId} (hf : s.loader.configFault = false)
    (h0 : (s.entry k).trouble = true) (hn : (s.sampledEntry volts k).dead = false)
    (hlow : (s.entry k).failures < s.loader.settings.lineThreshold)
    (h : ∀ j, j ≠ k → ((s.entry j).trouble = true ↔ (s.entry j).wired = true ∧
      (s.loader.settings.lineThreshold ≤ (s.entry j).failures ∨ (s.sampledEntry volts j).dead = true))) :
    (s.linesWatched volts).queue = s.queue.admitEvent s.time ⟨90 + k.index, .line, .cleared, 5⟩ := by
  have hentry : ∀ j, (watchLine s (s.linesTimed volts)).entry j = s.sampledEntry volts j := fun j => by
    rw [watchLine_eq]
    exact s.linesTimed_entry volts j
  have hloader : (watchLine s (s.linesTimed volts)).loader = s.loader := by rw [watchLine_eq]; rfl
  have hold : ∀ j, ((watchLine s (s.linesTimed volts)).entry j).trouble = (s.entry j).trouble := fun j => by
    obtain ⟨_, _, _, _, _, htrouble⟩ := s.sampledEntry_keeps volts j
    rw [hentry, htrouble]
  have hnew : ∀ j, ((watchLine s (s.linesTimed volts)).refreshTrouble.entry j).trouble = true ↔
      (s.entry j).wired = true ∧
        (s.loader.settings.lineThreshold ≤ (s.entry j).failures ∨ (s.sampledEntry volts j).dead = true) := fun j => by
    obtain ⟨_, _, hwired, _, hfailures, _⟩ := s.sampledEntry_keeps volts j
    rw [State.refreshTrouble_trouble, hentry, hloader, Entry.inTrouble_iff, Entry.Troubled, hwired, hfailures]
  have hclear : ((watchLine s (s.linesTimed volts)).refreshTrouble.entry k).trouble = false := by
    refine Bool.eq_false_iff.mpr fun ht => ?_
    obtain ⟨_, hle | hd⟩ := (hnew k).mp ht
    · omega
    · exact absurd (hn.symm.trans hd) (by decide)
  have htold := State.refreshTrouble_cleared k (watchLine s (s.linesTimed volts)) (hloader ▸ hf) ((hold k).trans h0) hclear
    fun j hj => Bool.eq_iff_iff.mpr ((hnew j).trans ((h j hj).symm.trans (by rw [hold j])))
  rw [State.linesWatched, htold]
  rw [watchLine_eq]
  rfl

/-- Settles O24: a pass changes no sense, or is watched, or loses the call. -/
theorem linePassCompletes : Obligations.LinePassCompletes := by
  unfold Obligations.LinePassCompletes
  intro volts s hv sampled turned
  obtain ⟨t, ht, hend⟩ := exec_lineSamplePass (volts := volts) hv
  have hpassed : s.Passed volts t := by
    rcases hend with ⟨_, rfl⟩ | ⟨_, _, hset⟩ | ⟨k, _, _, hup⟩
    · exact s.linesSampled_passed volts
    · exact State.linesWatched_settled volts hset
    · exact State.linesLost_hungUp volts hup
  refine ⟨t, ht, fun k => ?_, fun k hk hturn => ?_, fun hne => ?_, fun hchange k => ?_, fun k hw hd hn => ?_,
    hpassed.loader, hpassed.time, hpassed.zone, hpassed.wire, hpassed.outcomes⟩
  · obtain ⟨hholder, hpending, hwired, hoccupancy, _⟩ := s.sampledEntry_keeps volts k
    exact ⟨hpassed.field Entry.band (fun _ => rfl) (fun _ _ _ => rfl) k,
      hpassed.field Entry.run (fun _ => rfl) (fun _ _ _ => rfl) k,
      hpassed.field Entry.sense (fun _ => rfl) (fun _ _ _ => rfl) k,
      hpassed.field Entry.deadTimer (fun _ => rfl) (fun _ _ _ => rfl) k,
      hpassed.field Entry.dead (fun _ => rfl) (fun _ _ _ => rfl) k,
      hpassed.field Entry.onHookTimer (fun _ => rfl) (fun _ _ _ => rfl) k,
      (hpassed.field Entry.holder (fun _ => rfl) (fun _ _ _ => rfl) k).trans hholder,
      (hpassed.field Entry.pending (fun _ => rfl) (fun _ _ _ => rfl) k).trans hpending,
      (hpassed.field Entry.wired (fun _ => rfl) (fun _ _ _ => rfl) k).trans hwired,
      (hpassed.field Entry.occupancy (fun _ => rfl) (fun _ _ _ => rfl) k).trans hoccupancy⟩
  · have hto : s.TurnedTo volts .onHook := hturn
    rcases hend with ⟨hsame, _⟩ | ⟨_, hnot, _⟩ | ⟨j, hj, _, hup⟩
    · exact absurd (hsame.symm.trans hto.senseChanged) (by decide)
    · exact absurd hto hnot
    · obtain rfl := Option.some.inj (hj.symm.trans hk)
      rw [State.linesTimed_eq, ← hup.allDead] at hup
      exact hup
  · rcases hend with ⟨hsame, rfl⟩ | ⟨_, _, hset⟩ | ⟨_, _, hto, _⟩
    · have hnever : ∀ {b : LineBand} {P : Prop}, s.TurnedTo volts b → P := fun hb =>
        absurd (hsame.symm.trans hb.senseChanged) (by decide)
      exact ⟨fun h => hnever h, fun h => hnever h, fun _ _ _ => ⟨rfl, rfl⟩⟩
    · obtain ⟨hcall, hstate, htone⟩ := s.linesWatched_call volts
      obtain ⟨hbattery, hoff, hneither⟩ := watchLine_call volts s
      obtain ⟨hsame, _, _⟩ := hset.call (by rw [hstate]; exact hne)
      rw [hsame, hset.tone, hcall, htone]
      exact ⟨fun h => ⟨hbattery h, rfl⟩, fun h => ⟨hoff h, rfl⟩, fun _ h g => ⟨hneither h g, rfl⟩⟩
    · exact ⟨fun h => absurd (hto.unique h) (by decide), fun h => absurd (hto.unique h) (by decide), fun h => absurd hto h⟩
  · have hchanged := (senseChanged_iff volts s).mpr hchange
    refine hpassed.trouble ?_ k
    rcases hend with ⟨hsame, _⟩ | ⟨_, _, hset⟩ | ⟨_, _, _, hup⟩
    · exact absurd (hsame.symm.trans hchanged) (by decide)
    · exact hset.flagsRight (State.refreshTrouble_flagsRight _)
    · exact hup.trouble
  · have hchanged := (senseChanged_iff volts s).mpr ⟨k, State.sampledEntry_dead hd hn⟩
    have habsent := State.linesTimed_allDead hw hn
    rcases hend with ⟨hsame, _⟩ | ⟨_, _, hset⟩ | ⟨_, _, hto, hup⟩
    · exact absurd (hsame.symm.trans hchanged) (by decide)
    · refine ⟨?_, fun _ hf h0 hlow hothers => ?_⟩
      · rw [hset.allDead, State.linesWatched, State.refreshTrouble_allDead, watchLine_eq]
        exact habsent
      · exact State.linesWatched_cleared hf h0 hn hlow hothers ▸ hset.sameButStates
    · exact ⟨hup.allDead.trans habsent, fun hnot => absurd hto hnot⟩

end Sys2Proof.Machine

/-! ### Admission, displacement, return and departure (R22 to R34) -/

namespace Sys2Proof.Machine

open Host

/-- The last of a list is a member that precedes no other (R26). -/
theorem lastOf_spec (now : Nat) {l : List Record} (h : l ≠ []) :
    ∃ m, lastOf now l = some m ∧ m ∈ l ∧ ∀ r ∈ l, precedes now m r = false := by
  induction l with
  | nil => exact absurd rfl h
  | cons r rest ih =>
    by_cases hr : rest = []
    · subst hr
      exact ⟨r, rfl, List.mem_singleton_self r, by simp [precedes_self]⟩
    · obtain ⟨m, hm, hmem, hlast⟩ := ih hr
      simp only [lastOf, hm, List.mem_cons, forall_eq_or_imp]
      split
      · next hp => exact ⟨m, rfl, .inr hmem, precedes_asymm hp, hlast⟩
      · next hp =>
        refine ⟨r, rfl, .inl rfl, precedes_self now r, fun x hx => ?_⟩
        exact not_precedes_trans (Bool.eq_false_iff.mpr hp) (hlast x hx)

theorem lastOf_eq_none {now : Nat} {l : List Record} : lastOf now l = none ↔ l = [] := by
  constructor
  · intro h
    by_contra hne
    obtain ⟨m, hm, _⟩ := lastOf_spec now hne
    exact absurd (h.symm.trans hm) (by simp)
  · rintro rfl
    rfl

/-- Records of different admission orders stand one before the other. -/
theorem precedes_of_not {now : Nat} {a b : Record} (ho : a.order ≠ b.order) (h : precedes now b a = false) :
    precedes now a b = true := by
  rw [precedes_eq_false_iff] at h
  rw [precedes_iff]
  omega

namespace AlertQueue

variable {q p : AlertQueue}

theorem Sound.eq_of_order (h : q.Sound) {r x : Record} (hr : r ∈ q.records) (hx : x ∈ q.records) :
    r.order = x.order ↔ r = x := ⟨Machine.eq_of_order h.ordered.1 hr hx, fun h => h ▸ rfl⟩

theorem Sound.modify_eq (h : q.Sound) {r : Record} (hr : r ∈ q.records) (f : Record → Record) :
    q.modify r.order f = { q with records := q.records.map fun x => if x = r then f r else x } := by
  unfold AlertQueue.modify
  congr 1
  refine List.map_congr_left fun x hx => ?_
  by_cases hxr : x = r
  · subst hxr
    simp
  · rw [if_neg (mt (h.eq_of_order hx hr).mp hxr), if_neg hxr]

theorem Sound.remove_eq (h : q.Sound) {r : Record} (hr : r ∈ q.records) :
    q.remove r.order = { q with records := q.records.filter fun x => decide (x ≠ r) } := by
  unfold AlertQueue.remove
  congr 1
  refine List.filter_congr fun x hx => ?_
  exact decide_eq_decide.mpr (not_congr (h.eq_of_order hx hr))

theorem Sound.find_eq (h : q.Sound) {r : Record} (hr : r ∈ q.records) : q.find r.order = some r := by
  cases hf : q.find r.order with
  | none => exact absurd rfl (of_decide_eq_false (Bool.eq_false_iff.mpr (List.find?_eq_none.mp hf r hr)))
  | some x =>
    obtain ⟨hx, ho⟩ := find_mem hf
    rw [(h.eq_of_order hx hr).mp ho]

theorem mem_sameReports {e : Event} {r : Record} : r ∈ q.sameReports e ↔
    r ∈ q.records ∧ r.waiting = true ∧ r.reports e.source e.condition = true := by simp [sameReports]

/-! #### One event (R28 to R31) -/

theorem takeEvent_merge {now : Nat} {e : Event} {latest : Record} (hl : lastOf now (q.sameReports e) = some latest)
    (hq : latest.qualifier = e.qualifier) : q.takeEvent now e = (q.modify latest.order bump, false) := by
  simp only [takeEvent, hl, hq, if_true]

theorem takeEvent_withdraw {now : Nat} {e : Event} {latest twin : Record}
    (hl : lastOf now (q.sameReports e) = some latest) (ho : opposite latest.qualifier e.qualifier = true)
    (ht : q.earlierTwin now e latest = some twin) :
    q.takeEvent now e = ((q.remove latest.order).modify twin.order bump, true) := by
  have hne : latest.qualifier ≠ e.qualifier := fun h => by
    rw [h] at ho
    revert ho
    cases e.qualifier <;> decide
  simp only [takeEvent, hl, if_neg hne, ho, if_true, ht]

/-- With no WAITING record of the event's qualifier a new record must be made. -/
theorem takeEvent_create {now : Nat} {e : Event} (h : ∀ r ∈ q.records, r.waiting = true →
    r.reports e.source e.condition = true → r.qualifier ≠ e.qualifier) :
    q.takeEvent now e = (q.createOrDisplace now e, false) := by
  unfold takeEvent
  split
  · rfl
  · next latest hl =>
    obtain ⟨hmem, hwait, hrep⟩ := mem_sameReports.mp (lastOf_mem hl)
    rw [if_neg (h latest hmem hwait hrep)]
    have hnone : q.earlierTwin now e latest = none := by
      refine lastOf_eq_none.mpr (List.filter_eq_nil_iff.mpr fun r hr => ?_)
      obtain ⟨hr, hw, hrp⟩ := mem_sameReports.mp hr
      simp [h r hr hw hrp]
    rw [hnone]
    split <;> rfl

theorem admitEvent_of_kept {now : Nat} {e : Event} (h : (q.takeEvent now e).2 = false) :
    q.admitEvent now e = (q.takeEvent now e).1 := by simp [admitEvent, h]

theorem admitEvent_of_withdrawn {now : Nat} {e : Event} (h : (q.takeEvent now e).2 = true) :
    q.admitEvent now e = (q.takeEvent now e).1.afterDeparture now := by simp [admitEvent, h]

/-- The record that an event creates (R18, Table 2-2). -/
theorem create_eq (hq : q.count ≤ 24) (now : Nat) (e : Event) : ∃ seq : Byte, FirstFree q.records q.seqCounter seq ∧
    q.create now e = { q with
      records := q.records ++ [{
        kind := .own ⟨seq, e.condition, now, now⟩, source := e.source, qualifier := e.qualifier, cls := e.cls
        rep := 0, attempts := 0, notBefore := now, second := false, order := q.admissions, state := .waiting }]
      seqCounter := seq + 1
      admissions := q.admissions + 1 } := ⟨q.nextSeq, nextSeq_firstFree hq, rfl⟩

/-! #### A departure under the overflow flag (R32) -/

theorem afterDeparture_of_clear (h : q.overflow = false) (now : Nat) : q.afterDeparture now = q := by
  simp [afterDeparture, h]

theorem afterDeparture_overflow (q : AlertQueue) (now : Nat) : (q.afterDeparture now).overflow = false := by
  unfold afterDeparture
  split
  · rfl
  · next h => exact Bool.eq_false_iff.mpr h

/-- The overflow event is created in the freed place. -/
theorem afterDeparture_creates (ho : q.overflow = true) (hq : q.count < 24) (now : Nat)
    (h : ∀ x ∈ q.records, x.waiting = true → x.reports 95 .overflow = false) :
    ∃ seq : Byte, FirstFree q.records q.seqCounter seq ∧ q.afterDeparture now = { q with
      records := q.records ++ [{
        kind := .own ⟨seq, .overflow, now, now⟩, source := 95, qualifier := .new, cls := 4
        rep := 0, attempts := 0, notBefore := now, second := false, order := q.admissions, state := .waiting }]
      seqCounter := seq + 1
      admissions := q.admissions + 1
      overflow := false } := by
  obtain ⟨seq, hfree, hcreate⟩ := create_eq (Nat.le_of_lt hq) now overflowEvent
  refine ⟨seq, hfree, ?_⟩
  have htake : q.takeEvent now overflowEvent = (q.createOrDisplace now overflowEvent, false) :=
    takeEvent_create fun x hx hw hr => absurd ((h x hx hw).symm.trans hr) (by decide)
  rw [afterDeparture, if_pos ho, htake]
  simp only [createOrDisplace, if_pos hq, hcreate]
  rfl

/-- The one WAITING record of source 95 takes the overflow event in. -/
theorem afterDeparture_merges (hs : q.Sound) (ho : q.overflow = true) (now : Nat) {w : Record} (hw : w ∈ q.records)
    (hwait : w.waiting = true) (hrep : w.reports 95 .overflow = true) (hnew : w.qualifier = .new)
    (honly : ∀ x ∈ q.records, x.waiting = true → x.reports 95 .overflow = true → x = w) :
    q.afterDeparture now = { q with
      records := q.records.map fun x => if x = w then { w with rep := min 9 (w.rep + 1) } else x
      overflow := false } := by
  have hmem : w ∈ q.sameReports overflowEvent := mem_sameReports.mpr ⟨hw, hwait, hrep⟩
  obtain ⟨m, hlast, hm, _⟩ := lastOf_spec now (List.ne_nil_of_mem hmem)
  obtain ⟨hm, hmw, hmr⟩ := mem_sameReports.mp hm
  obtain rfl := honly m hm hmw hmr
  rw [afterDeparture, if_pos ho, takeEvent_merge hlast hnew, hs.modify_eq hw]
  rfl

end AlertQueue

/-- Settles O25: the three ends of `takeEvent`, with the departure that a withdrawal is. -/
theorem eventsMergeOrCreate : Obligations.EventsMergeOrCreate := by
  unfold Obligations.EventsMergeOrCreate
  intro now e q hs
  refine ⟨fun latest hl => ?_, fun hcount hnone => ?_⟩
  · have hl' : lastOf now (q.sameReports e) = some latest := hl
    obtain ⟨hmem, hwait, hrep⟩ := AlertQueue.mem_sameReports.mp (AlertQueue.lastOf_mem hl')
    refine ⟨fun hq => ?_, fun twin hopp ht => ?_⟩
    · have htake := AlertQueue.takeEvent_merge hl' hq
      rw [AlertQueue.admitEvent_of_kept (by rw [htake]), htake, hs.modify_eq hmem]
      rfl
    · intro left
      have hopposite : AlertQueue.opposite latest.qualifier e.qualifier = true := by
        rcases hopp with ⟨hlq, heq⟩ | ⟨hlq, heq⟩ <;> rw [hlq, heq] <;> rfl
      have htmem := AlertQueue.lastOf_mem ht
      simp only [List.mem_filter, Bool.and_eq_true, decide_eq_true_iff] at htmem
      obtain ⟨htmem, ⟨_, _⟩, htq⟩ := htmem
      have hqne : latest.qualifier ≠ e.qualifier := by
        rcases hopp with ⟨hlq, heq⟩ | ⟨hlq, heq⟩ <;> rw [hlq, heq] <;> decide
      have hahead : ∀ r ∈ q.sameReports e, r ≠ latest → precedes now r latest = true := fun r hr hne => by
        obtain ⟨m, hm, _, hlast⟩ := lastOf_spec now (List.ne_nil_of_mem hr)
        obtain rfl := Option.some.inj (hm.symm.trans hl')
        exact precedes_of_not (mt (hs.eq_of_order (AlertQueue.mem_sameReports.mp hr).1 hmem).mp hne) (hlast r hr)
      have htwin : q.earlierTwin now e latest = some twin := by
        rw [AlertQueue.earlierTwin, ← ht, AlertQueue.sameReports, List.filter_filter]
        congr 1
        refine List.filter_congr fun r hr => ?_
        by_cases hrep' : r.waiting = true ∧ r.reports e.source e.condition = true ∧ r.qualifier = e.qualifier
        · obtain ⟨hrw, hrr, hrq⟩ := hrep'
          have hne : r ≠ latest := fun h => hqne (h ▸ hrq)
          simp [hrw, hrr, hrq, hahead r (AlertQueue.mem_sameReports.mpr ⟨hr, hrw, hrr⟩) hne]
        · have hfalse : (r.waiting && r.reports e.source e.condition && decide (r.qualifier = e.qualifier)) = false := by
            rw [Bool.eq_false_iff]
            simpa [and_assoc] using hrep'
          rw [hfalse]
          refine Bool.eq_false_iff.mpr fun hx => ?_
          have hx' : (r.qualifier = e.qualifier ∧ precedes now r latest = true) ∧ r.waiting = true ∧
              r.reports e.source e.condition = true := by simpa using hx
          exact hrep' ⟨hx'.2.1, hx'.2.2, hx'.1.1⟩
      have htake := AlertQueue.takeEvent_withdraw hl' hopposite htwin
      have htne : twin ≠ latest := fun h => hqne (h ▸ htq)
      have hleft : (q.remove latest.order).modify twin.order AlertQueue.bump = { q with records := left } := by
        have hremoved := (hs.remove_eq hmem)
        have htin : twin ∈ (q.remove latest.order).records := by
          rw [hremoved]
          exact List.mem_filter.mpr ⟨htmem, decide_eq_true htne⟩
        rw [(hs.remove latest.order).modify_eq htin, hremoved]
        rfl
      have hadmit : q.admitEvent now e = AlertQueue.afterDeparture now { q with records := left } := by
        rw [AlertQueue.admitEvent_of_withdrawn (by rw [htake]), htake, hleft]
      have hsound : AlertQueue.Sound { q with records := left } :=
        hleft ▸ (hs.remove latest.order).modify twin.order fun r _ _ => rfl
      have hcount : AlertQueue.count { q with records := left } < 24 := by
        have hless := AlertQueue.remove_count_lt hmem
        have hsame : AlertQueue.count ((q.remove latest.order).modify twin.order AlertQueue.bump) =
            (q.remove latest.order).count :=
          List.length_map _
        rw [hleft] at hsame
        exact hsame ▸ hless.trans_le hs.bounded.1
      rw [hadmit]
      refine ⟨AlertQueue.afterDeparture_overflow _ _,
        fun ho => AlertQueue.afterDeparture_of_clear (q := { q with records := left }) ho now,
        fun ho hno => AlertQueue.afterDeparture_creates (q := { q with records := left }) ho hcount now hno,
        fun w hw ho hwait hrep hnew honly => ?_⟩
      exact AlertQueue.afterDeparture_merges hsound ho now hw hwait hrep hnew honly
  · have htake := AlertQueue.takeEvent_create (now := now) hnone
    obtain ⟨seq, hfree, hcreate⟩ := AlertQueue.create_eq (Nat.le_of_lt hcount) now e
    refine ⟨seq, hfree, ?_⟩
    rw [AlertQueue.admitEvent_of_kept (by rw [htake]), htake]
    simp only [AlertQueue.createOrDisplace, if_pos hcount, hcreate]

/-- Settles O26. -/
theorem fullQueueDisplaces : Obligations.FullQueueDisplaces := by
  unfold Obligations.FullQueueDisplaces
  intro now e q hs hcount hnone
  have htake := AlertQueue.takeEvent_create (now := now) hnone
  have hadmit : q.admitEvent now e = q.createOrDisplace now e := by
    rw [AlertQueue.admitEvent_of_kept (by rw [htake]), htake]
  have hfull : ¬ q.count < 24 := by omega
  rw [hadmit, AlertQueue.createOrDisplace, if_neg hfull]
  have hmark : ∀ p : AlertQueue, p.overflow = q.overflow →
      p.markOverflow.overflow = true ∧ (q.overflow = false → p.markOverflow.queueOverflow = true) := fun p hp =>
    ⟨rfl, fun ho => by simp [AlertQueue.markOverflow, hp, ho]⟩
  have hcand : ∀ r, r ∈ (q.records.filter fun r => r.isOwn && r.waiting && decide (3 ≤ r.cls ∧ e.cls < r.cls)) ↔
      r ∈ q.records ∧ r.isOwn = true ∧ r.waiting = true ∧ 3 ≤ r.cls ∧ e.cls < r.cls := fun r => by
    simp [and_assoc]
  cases hv : q.victim now e.cls with
  | none =>
    have hempty := lastOf_eq_none.mp hv
    refine ⟨(hmark q rfl).1, (hmark q rfl).2, hcount, fun _ => rfl, fun ⟨r, hr, hcls⟩ => ?_⟩
    have := (hcand r).mpr ⟨hr, hcls⟩
    rw [hempty] at this
    cases this
  | some v =>
    obtain ⟨hmem, hown, hstate, h3, hcls⟩ := AlertQueue.victim_spec hv
    have hwait : v.waiting = true := decide_eq_true hstate
    have hremoved := hs.remove_eq hmem
    have hrecords : ((q.remove v.order).create now e).markOverflow.records =
        q.records.filter (fun r => decide (r ≠ v)) ++ [(q.remove v.order).ownRecord now e] := by
      change (q.remove v.order).records ++ _ = _
      rw [hremoved]
    obtain ⟨hover, hcond⟩ := hmark ((q.remove v.order).create now e) rfl
    refine ⟨hover, hcond, ?_, fun hall => ?_, fun _ => ?_⟩
    · have hnodup : q.records.Nodup := List.Nodup.of_map _ hs.ordered.1
      have herase : (q.records.filter fun r => decide (r ≠ v)) = q.records.erase v := by
        rw [hnodup.erase_eq_filter]
        exact List.filter_congr fun r _ => Bool.eq_iff_iff.mpr (by simp)
      simp only [AlertQueue.count] at hcount
      rw [AlertQueue.count, hrecords, List.length_append, List.length_singleton, herase,
        List.length_erase_of_mem hmem]
      omega
    · exact absurd (hall v hmem hown hwait h3) (by omega)
    · refine ⟨v, hmem, hown, hwait, h3, hcls, fun r hr hro hrw hr3 hrcls hne => ?_, _, hrecords, rfl, rfl, rfl⟩
      have hin := (hcand r).mpr ⟨hr, hro, hrw, hr3, hrcls⟩
      obtain ⟨m, hm, _, hlast⟩ := lastOf_spec now (List.ne_nil_of_mem hin)
      obtain rfl := Option.some.inj (hm.symm.trans hv)
      exact precedes_of_not (mt (hs.eq_of_order hr hmem).mp hne) (hlast r hin)

/-! #### The join (R25) -/

theorem Record.sameReport_iff {r w : Record} : r.sameReport w = true ↔ w.source = r.source ∧ w.qualifier = r.qualifier ∧
    ∃ a b, r.kind = .own a ∧ w.kind = .own b ∧ a.condition = b.condition := by
  unfold Record.sameReport Record.reports
  cases r.kind <;> cases w.kind <;> simp
  tauto

/-- The records that a returning record is joined with (R25). -/
def AlertQueue.IsTwin (q : AlertQueue) (r w : Record) : Prop :=
  w ∈ q.records ∧ w ≠ r ∧ w.state = .waiting ∧ 3 ≤ r.cls ∧ w.source = r.source ∧
    w.qualifier = r.qualifier ∧ ∃ a b, r.kind = .own a ∧ w.kind = .own b ∧ a.condition = b.condition

namespace AlertQueue

variable {q : AlertQueue}

theorem Sound.isTwin_iff (h : q.Sound) {r w : Record} (hr : r ∈ q.records) : q.IsTwin r w ↔
    3 ≤ r.cls ∧ w ∈ q.records ∧ (w.waiting && decide (w.order ≠ r.order) && r.sameReport w) = true := by
  simp only [IsTwin, Bool.and_eq_true, decide_eq_true_iff, Record.sameReport_iff, Record.waiting]
  constructor
  · rintro ⟨hw, hne, hs, h3, hsrc, hqual, hown⟩
    exact ⟨h3, hw, ⟨hs, mt (h.eq_of_order hw hr).mp hne⟩, hsrc, hqual, hown⟩
  · rintro ⟨h3, hw, ⟨hs, hne⟩, hsrc, hqual, hown⟩
    exact ⟨hw, mt (h.eq_of_order hw hr).mpr hne, hs, h3, hsrc, hqual, hown⟩

theorem Sound.joinTwin_some (h : q.Sound) {r w : Record} (hr : r ∈ q.records) (hj : q.joinTwin r = some w) :
    q.IsTwin r w := by
  unfold joinTwin at hj
  split at hj
  · next h3 => exact (h.isTwin_iff hr).mpr ⟨h3, List.mem_of_find?_eq_some hj, List.find?_some (p := fun w =>
      w.waiting && decide (w.order ≠ r.order) && r.sameReport w) hj⟩
  · cases hj

theorem Sound.joinTwin_none (h : q.Sound) {r : Record} (hr : r ∈ q.records) :
    q.joinTwin r = none ↔ ∀ w, ¬ q.IsTwin r w := by
  constructor
  · intro hj w hw
    obtain ⟨h3, hmem, hp⟩ := (h.isTwin_iff hr).mp hw
    rw [joinTwin, if_pos h3, List.find?_eq_none] at hj
    exact hj w hmem hp
  · intro hno
    cases hj : q.joinTwin r with
    | none => rfl
    | some w => exact absurd (h.joinTwin_some hr hj) (hno w)

/-- A record with no twin is given back and nothing else changes (R22, R25). -/
theorem Sound.giveBack_alone (h : q.Sound) {r : Record} (hr : r ∈ q.records) (now : Nat)
    (hno : ∀ w, ¬ q.IsTwin r w) : q.giveBack now r.order =
      { q with records := q.records.map fun x => if x = r then { r with state := .waiting } else x } := by
  simp only [AlertQueue.giveBack, h.find_eq hr, (h.joinTwin_none hr).mpr hno]
  exact h.modify_eq hr _

/-- A record with a twin takes it in, and the twin's departure follows (R25, R32). -/
theorem Sound.giveBack_joined (h : q.Sound) {r w : Record} (hr : r ∈ q.records) (now : Nat)
    (hj : q.joinTwin r = some w) : q.giveBack now r.order = AlertQueue.afterDeparture now { q with
      records := (q.records.filter fun x => decide (x ≠ w)).map fun x =>
        if x = r then { r with state := .waiting, rep := min 9 (r.rep + (w.rep + 1)) } else x } := by
  obtain ⟨hw, hne, _⟩ := h.joinTwin_some hr hj
  have hremoved := h.remove_eq hw
  have hin : r ∈ (q.remove w.order).records := by
    rw [hremoved]
    exact List.mem_filter.mpr ⟨hr, decide_eq_true (Ne.symm hne)⟩
  simp only [AlertQueue.giveBack, h.find_eq hr, hj]
  rw [(h.remove w.order).modify_eq hin, hremoved]

/-! #### Departures and deliveries (R32 to R34) -/

/-- With a free place an event moves neither the comm-fail indicator nor QUEUE_OVERFLOW, and is taken alike whatever
they are. -/
theorem takeEvent_flags (hq : q.count < 24) (now : Nat) (e : Event) (commFail queueOverflow : Bool) :
    takeEvent now e { q with commFail := commFail, queueOverflow := queueOverflow } =
      ({ (q.takeEvent now e).1 with commFail := commFail, queueOverflow := queueOverflow }, (q.takeEvent now e).2) := by
  have hcreate : createOrDisplace now e { q with commFail := commFail, queueOverflow := queueOverflow } =
      { q.createOrDisplace now e with commFail := commFail, queueOverflow := queueOverflow } := by
    have hfull : count { q with commFail := commFail, queueOverflow := queueOverflow } < 24 := hq
    rw [createOrDisplace, createOrDisplace, if_pos hfull, if_pos hq]
    rfl
  have hsame : sameReports e { q with commFail := commFail, queueOverflow := queueOverflow } = q.sameReports e := rfl
  have htwin : ∀ latest, earlierTwin now e latest { q with commFail := commFail, queueOverflow := queueOverflow } =
      q.earlierTwin now e latest := fun _ => rfl
  simp only [takeEvent, hsame, htwin, hcreate]
  cases lastOf now (q.sameReports e) with
  | none => rfl
  | some latest =>
    by_cases hqual : latest.qualifier = e.qualifier
    · simp only [if_pos hqual]
      rfl
    · simp only [if_neg hqual]
      cases opposite latest.qualifier e.qualifier with
      | false => rfl
      | true => cases q.earlierTwin now e latest <;> rfl

theorem afterDeparture_flags (hq : q.count < 24) (now : Nat) (commFail queueOverflow : Bool) :
    afterDeparture now { q with commFail := commFail, queueOverflow := queueOverflow } =
      { q.afterDeparture now with commFail := commFail, queueOverflow := queueOverflow } := by
  have hflag : overflow { q with commFail := commFail, queueOverflow := queueOverflow } = q.overflow := rfl
  by_cases ho : q.overflow = true
  · rw [afterDeparture, if_pos (hflag.trans ho), takeEvent_flags hq, afterDeparture, if_pos ho]
  · rw [afterDeparture_of_clear (Bool.eq_false_iff.mpr ho)]
    exact afterDeparture_of_clear (hflag.trans (Bool.eq_false_iff.mpr ho)) now

/-- A delivery is a departure, and clears what it clears (R33, R34). -/
theorem Sound.deliver_eq (h : q.Sound) {r : Record} (hr : r ∈ q.records) (now : Nat) :
    q.deliver now r =
      { q.depart now r.order with commFail := false, queueOverflow := q.overflowAfterDelivery r } :=
  afterDeparture_flags (Nat.lt_of_lt_of_le (remove_count_lt hr) h.bounded.1) now _ _

end AlertQueue

theorem Record.isOwn_iff {r : Record} : r.isOwn = true ↔ ∃ o, r.kind = .own o := by
  unfold Record.isOwn
  cases r.kind <;> simp

/-- Settles O27: a record given back, alone or with the twin it is joined with. -/
theorem recordsReturnAndJoin : Obligations.RecordsReturnAndJoin := by
  unfold Obligations.RecordsReturnAndJoin
  intro now q r hs hr ho
  refine ⟨fun hno => hs.giveBack_alone hr now hno, fun hex => ?_⟩
  cases hj : q.joinTwin r with
  | none => exact absurd hex (not_exists.mpr ((hs.joinTwin_none hr).mp hj))
  | some w =>
    refine ⟨w, hs.joinTwin_some hr hj, ?_⟩
    rw [hs.giveBack_joined hr now hj]
    exact AlertQueue.afterDeparture_of_clear (by exact ho) now

/-- Settles O28. -/
theorem departuresCallOverflow : Obligations.DeparturesCallOverflow := by
  unfold Obligations.DeparturesCallOverflow
  intro now q r hs hr left
  have hdepart : q.depart now r.order = AlertQueue.afterDeparture now { q with records := left } := by
    rw [AlertQueue.depart, hs.remove_eq hr]
  have hcount : AlertQueue.count { q with records := left } < 24 := by
    have hless := AlertQueue.remove_count_lt hr
    rw [hs.remove_eq hr] at hless
    exact hless.trans_le hs.bounded.1
  have hsound : AlertQueue.Sound { q with records := left } := hs.remove_eq hr ▸ hs.remove r.order
  rw [hs.deliver_eq hr, hdepart]
  refine ⟨fun ho => AlertQueue.afterDeparture_of_clear (q := { q with records := left }) ho now,
    fun ho hno => AlertQueue.afterDeparture_creates (q := { q with records := left }) ho hcount now hno,
    fun w hw ho hwait hrep hnew honly => AlertQueue.afterDeparture_merges hsound ho now hw hwait hrep hnew honly,
    rfl, rfl, AlertQueue.afterDeparture_overflow _ _, fun ⟨o, hown, hsrc⟩ => ?_, fun hno => ?_⟩
  · simp [AlertQueue.overflowAfterDelivery, Record.isOwn_iff.mpr ⟨o, hown⟩, hsrc]
  · refine if_neg fun h => hno ?_
    obtain ⟨hown, hsrc⟩ := Bool.and_eq_true_iff.mp h
    obtain ⟨o, ho⟩ := Record.isOwn_iff.mp hown
    exact ⟨o, ho, of_decide_eq_true hsrc⟩

end Sys2Proof.Machine

/-! ### The call's failures and the tone detector (R121 to R123, R128, R129, R132, R136) -/

namespace Sys2Proof.Machine

open Host

theorem State.timing_iff {state : CallState} {timer : CallTimer} {s : State} :
    s.timing state timer = true ↔ s.call.state = state ∧ s.call.timer = some timer := decide_eq_true_iff

/-- A hang-up that the end of the step follows (R139). -/
theorem State.settle_hungUp {k : LineId} {s : State} (hk : s.call.line = some k) (o : CallOutcome) (before : State) :
    State.HungUp k o s (before.settle (s.hangUp o)) :=
  (State.hangUp_hungUp k o s hk).settled (State.settle_settled _ _)

/-- A command ends the call in an outcome, or in IDLE nothing (Table 7-6). -/
inductive State.Fails (s : State) : Instr → CallOutcome → State → Prop
  | noDialTone : s.call.state = .seize → s.call.timer = some .dialToneWait →
      s.Fails .dialToneWaitExpiry .noDialTone s
  | lineLost : s.call.lineLost = true → s.Fails .lineLostTimerExpiry .lineLost s
  | centreBusy : s.call.state = .handshake → s.call.timer = some .handshakeWait → s.tone.busyCycles = 3 →
      s.Fails .busyCadence .centreBusy s.cadenceReported
  | noHandshake : s.call.state = .handshake → s.call.timer = some .handshakeWait →
      s.Fails .handshakeWaitExpiry .noHandshake s
  | noKissoff : s.call.state = .kissoff → s.call.timer = some .kissoffWait → 4 ≤ s.call.sends →
      s.callInHand.isSome = true → s.Fails .kissoffWaitExpiry .noKissoff s

theorem State.Fails.exec {s ending : State} {c : Instr} {o : CallOutcome} (h : s.Fails c o ending) :
    exec c s = .next (s.settle (ending.hangUp o)) := by
  cases h with
  | noDialTone hs ht => exact if_pos (State.timing_iff.mpr ⟨hs, ht⟩)
  | lineLost hl => exact if_pos hl
  | centreBusy hs ht hb => exact (if_pos ⟨hs, hb⟩).trans (if_pos (State.timing_iff.mpr ⟨hs, ht⟩))
  | noHandshake hs ht => exact if_pos (State.timing_iff.mpr ⟨hs, ht⟩)
  | noKissoff hs ht h4 hr =>
    obtain ⟨r, hr⟩ := Option.isSome_iff_exists.mp hr
    change execKissoffWaitExpiry s = _
    simp only [execKissoffWaitExpiry, hr, State.timing_iff.mpr ⟨hs, ht⟩, if_true, if_neg (Nat.not_lt.mpr h4)]

/-- Settles O58: each failure hangs up with its outcome. -/
theorem callsHangUp : Obligations.CallsHangUp := by
  unfold Obligations.CallsHangUp
  intro s k hk
  refine ⟨fun hs ht => ⟨_, (State.Fails.noDialTone hs ht).exec, State.settle_hungUp hk _ _⟩,
    fun hl => ⟨_, (State.Fails.lineLost hl).exec, State.settle_hungUp hk _ _⟩,
    fun hs ht hb => ⟨_, (State.Fails.centreBusy hs ht hb).exec, State.settle_hungUp (s := s.cadenceReported) hk _ _⟩,
    fun hs ht => ⟨_, (State.Fails.noHandshake hs ht).exec, State.settle_hungUp hk _ _⟩,
    fun hs ht h4 hr => ⟨_, (State.Fails.noKissoff hs ht h4 hr).exec, State.settle_hungUp hk _ _⟩⟩

/-! #### While the generator sends, the class is NONE -/

/-- The generator has stopped, or the generator and the class are as they were. -/
def State.Hush (s t : State) : Prop := t.atx = [] ∨ t.atx = s.atx ∧ t.tone.cls = s.tone.cls

theorem State.atx_eq_nil {s : State} (h : s.call.state ≠ .dial ∧ s.call.state ≠ .send) : s.atx = [] := by
  unfold State.atx
  split
  · next h1 _ => exact absurd h1 h.1
  · next h1 => exact absurd h1 h.2
  · rfl

namespace State.Hush

variable {s t u : State}

theorem refl (s : State) : s.Hush s := .inr ⟨rfl, rfl⟩

theorem trans (h : s.Hush t) (g : t.Hush u) : s.Hush u := by
  rcases g with g | ⟨ga, gt⟩
  · exact .inl g
  · rcases h with h | ⟨ha, ht⟩
    · exact .inl (ga.trans h)
    · exact .inr ⟨ga.trans ha, gt.trans ht⟩

theorem of_same (h : t.call = s.call ∧ t.tone = s.tone) : s.Hush t := .inr ⟨by rw [State.atx, h.1]; rfl, by rw [h.2]⟩

theorem of_fields (h : t.call.state = s.call.state ∧ t.call.digits = s.call.digits ∧ t.call.block = s.call.block ∧
    t.tone.cls = s.tone.cls) : s.Hush t := .inr ⟨by rw [State.atx, h.1, h.2.1, h.2.2.1]; rfl, h.2.2.2⟩

theorem after (g : t.Hush u) (h : t.call = s.call ∧ t.tone = s.tone) : s.Hush u := (of_same h).trans g

theorem next (g : s.Hush t) (h : u.call = t.call ∧ u.tone = t.tone) : s.Hush u := g.trans (of_same h)

theorem of_stop (h : t.call.state ≠ .dial ∧ t.call.state ≠ .send) : s.Hush t := .inl (State.atx_eq_nil h)

theorem of_carryOnly (h : s.CarryOnly t) : s.Hush t := of_same ⟨h.call, by have := congrArg State.tone h; exact this⟩

theorem of_hungUp {k : LineId} {o : CallOutcome} (h : State.HungUp k o s t) : s.Hush t :=
  of_stop (by simp [h.call, CallEngine.hungUp])

end State.Hush

section
variable (s : State)

theorem State.trySeize_hush : s.Hush s.trySeize := by
  unfold State.trySeize
  split
  · split
    · refine .of_stop ?_
      unfold State.enterSeize
      dsimp only
      split <;> exact ⟨by simp [State.closeHook], by simp [State.closeHook]⟩
    · exact .refl s
  · exact .refl s

theorem State.reportGuardDone_hush : s.Hush s.reportGuardDone := by
  unfold State.reportGuardDone
  split
  · exact .trans (.of_fields (t := { s with call := { s.call with guardDone := true } }) ⟨rfl, rfl, rfl, rfl⟩)
      (State.trySeize_hush _)
  · exact .refl s

theorem State.reportFastReady_hush : s.Hush s.reportFastReady := by
  unfold State.reportFastReady
  split
  · exact .refl s
  · exact .trans (.of_fields (t := { s with call := { s.call with fastReady := true } }) ⟨rfl, rfl, rfl, rfl⟩)
      (State.trySeize_hush _)

theorem State.requestClock_hush : s.Hush s.requestClock := by
  unfold State.requestClock
  split
  · split <;> exact .of_same ⟨rfl, rfl⟩
  · exact .refl s
  · exact .after (State.reportFastReady_hush _) ⟨rfl, rfl⟩

theorem State.holderGone_hush (k : LineId) : s.Hush (s.holderGone k) := by
  unfold State.holderGone
  dsimp only
  split
  · exact .after (State.reportGuardDone_hush _) ⟨rfl, rfl⟩
  · exact .of_same ⟨rfl, rfl⟩

theorem State.startCall_hush (r : Record) (k : LineId) (tier : Tier) : s.Hush (s.startCall r k tier) := by
  unfold State.startCall
  refine .trans (.trans (.of_stop ?_) (State.requestClock_hush _)) (State.trySeize_hush _)
  exact ⟨by simp [State.placeOn], by simp [State.placeOn]⟩

theorem State.choose_hush : s.Hush s.choose := by
  unfold State.choose
  split
  · split
    · exact .refl s
    · split
      · exact s.startCall_hush _ _ _
      · exact .refl s
  · exact .refl s

theorem State.chooseAndOffer_hush : s.Hush s.chooseAndOffer := by
  unfold State.chooseAndOffer
  split
  · dsimp only
    split
    · exact .after (State.choose_hush _) (by simp)
    · exact .next (.after (t := { s with free := s.free + 1 }) (State.choose_hush _) ⟨rfl, rfl⟩) (by simp)
  · exact .next s.choose_hush (by simp)

theorem Ending.close_hush (e : Ending) (b : State) : s.Hush (e.close b s) := by
  cases e with
  | none => exact .refl s
  | frames =>
    have h := State.settleFrames_framesOnly b s
    exact .of_same ⟨h.sameCall, h.settled.tone⟩
  | choice =>
    exact .next (.after (t := b.checkAccept s) (State.choose_hush _) (by simp)) (by simp [Ending.close, State.settleChoice])
  | full =>
    exact .next (.after (t := b.checkAccept s) (State.chooseAndOffer_hush _) (by simp)) (by simp [Ending.close, State.settle])

theorem State.giveUpCall_hush : s.Hush s.giveUpCall := .of_stop (by simp [State.giveUpCall, State.enterIdle, CallEngine.idle])

theorem State.rechoose_hush : s.Hush s.rechoose := by
  unfold State.rechoose
  split
  · exact s.giveUpCall_hush
  · split
    · split
      · exact .trans (.of_fields (by simp [State.placeOn])) (State.trySeize_hush _)
      · exact s.giveUpCall_hush
    · exact s.giveUpCall_hush

theorem State.dropClaim_hush (k : LineId) : s.Hush (s.dropClaim k) := .of_fields (by simp [State.dropClaim])

theorem State.abandonInClaim_hush (k : LineId) : s.Hush (s.abandonInClaim k) :=
  (s.dropClaim_hush k).trans (State.rechoose_hush _)

theorem State.hangUp_hush (o : CallOutcome) : s.Hush (s.hangUp o) := by
  cases hk : s.call.line with
  | none => rw [State.hangUp, hk]; exact .refl s
  | some k => exact .of_hungUp (State.hangUp_hungUp k o s hk)

theorem State.setYield_hush : s.Hush s.setYield := by
  unfold State.setYield
  split
  · exact .refl s
  · refine .trans (.of_fields (t := { s with call := { s.call with yieldPending := true } }) ⟨rfl, rfl, rfl, rfl⟩) ?_
    unfold State.takeYield
    split
    case h_5 => split; exacts [State.hangUp_hush _ _, .refl _]
    all_goals first | exact State.hangUp_hush _ _ | exact .refl _

theorem State.enterSolo_hush : s.Hush s.enterSolo := by
  refine .after (t := { s with zone := { s.zone with busTimer := true } }) ?_ ⟨rfl, rfl⟩
  unfold State.enterSolo State.claimIntoSolo
  split
  · split
    · split
      · exact .after (State.reportGuardDone_hush _) ⟨rfl, rfl⟩
      · exact State.abandonInClaim_hush _ _
    · split
      · dsimp only
        split
        · exact .after (State.reportGuardDone_hush _) ⟨rfl, rfl⟩
        · exact .of_same ⟨rfl, rfl⟩
      · exact .refl _
  · exact .refl _

theorem State.concludeSending_hush (x : Slot) : s.Hush (s.concludeSending x) := by
  refine .after (t := { s with rbc := s.rbc.dropSending, carry := s.carry.slotEmptied x.marker }) ?_ ⟨rfl, rfl⟩
  unfold State.concludeSending State.frameEnded State.claimEnded State.offerEnded State.carryEnded
  (repeat' split) <;> exact .of_same ⟨rfl, rfl⟩

theorem State.transmitError_hush (kind : ErrorKind) (x : Slot) (b : State) : s.Hush (b.enterBusOff (s.afterError kind x)) := by
  have herror : s.Hush (s.afterError kind x) := by
    unfold State.afterError
    split
    · split
      · exact s.concludeSending_hush x
      · exact .of_same (by simp)
    · exact .of_same (by simp)
  refine herror.trans ?_
  unfold State.enterBusOff
  split
  · dsimp only
    split
    · exact .of_same ⟨rfl, rfl⟩
    · exact .after (State.enterSolo_hush _) ⟨rfl, rfl⟩
  · exact .refl _

theorem State.takeClaim_hush (f : ClaimFields) : s.Hush (s.takeClaim f) := by
  unfold State.takeClaim
  split
  · exact .refl s
  · split
    · split
      · exact (s.dropClaim_hush f.line).trans (.after (t := State.recordClaim f _) (State.rechoose_hush _) ⟨rfl, rfl⟩)
      · unfold State.answerClaim
        split
        · exact .after (State.setYield_hush _) ⟨rfl, rfl⟩
        · exact .of_same (by simp)
    · exact .of_same ⟨rfl, rfl⟩

theorem State.takeObject_hush (f : ClaimFields) : s.Hush (s.takeObject f) := by
  unfold State.takeObject
  split
  · exact .refl s
  · dsimp only
    split
    · refine .after (t := { s with view := s.view.update f.line (Entry.observeObject f.addr f.key) }) ?_ ⟨rfl, rfl⟩
      unfold State.takeObjection
      split <;> first
        | exact State.abandonInClaim_hush _ _
        | exact State.hangUp_hush _ _
        | exact .refl _
    · exact .of_same ⟨rfl, rfl⟩

theorem State.takeRelease_hush (f : ReleaseFields) : s.Hush (s.takeRelease f) := by
  unfold State.takeRelease
  split
  · exact .refl s
  · split
    · exact s.holderGone_hush _
    · exact .of_same ⟨rfl, rfl⟩

theorem State.abandonForClock_hush (k : LineId) : s.Hush (s.abandonForClock k) := by
  unfold State.abandonForClock
  split
  · exact s.abandonInClaim_hush k
  · exact .next (s.abandonInClaim_hush k) (by simp)

theorem State.afterDelivery_hush : s.Hush s.afterDelivery := by
  unfold State.afterDelivery
  split
  · exact s.hangUp_hush _
  · split
    · split
      · exact .of_fields ⟨rfl, rfl, rfl, rfl⟩
      · exact s.hangUp_hush _
    · exact s.hangUp_hush _

/-- Dialling, the generator sends a digit with the class NONE, or nothing. -/
theorem State.dialFrom_mute (digits : List DialDigit) (h : s.call.state = .dial) :
    (s.dialFrom digits).atx = [] ∨ (s.dialFrom digits).tone.cls = .none := by
  cases digits with
  | nil => exact .inl (State.atx_eq_nil ⟨by simp [State.dialFrom], by simp [State.dialFrom]⟩)
  | cons d rest =>
    cases d with
    | pause => exact .inl (by simp [State.dialFrom, State.atx, h])
    | digit d => exact .inr rfl

end

/-- The commands that start a tone, and those that judge the class. -/
def movesTone : Instr → Bool
  | .dialToneJudged => true
  | .digitEnd => true
  | .settleEnd => true
  | .betweenMessagesEnd => true
  | .kissoffWaitExpiry => true
  | .toneClassChange _ _ _ => true
  | .toneGapLimit _ => true
  | .fastClockRelease => true
  | .reset => true
  | _ => false

theorem sentType_movesTone {c : Instr} {type : FrameType} (h : sentType c = some type) : movesTone c = false := by
  cases c <;> first | rfl | cases h

theorem State.Effect.hush {s b u : State} {c : Instr} {e : Ending} (h : s.Effect c e b u) (hc : movesTone c = false) :
    s.Hush u := by
  cases h with
  | reset | dialToneJudged | digitEnd | settleEnd | betweenMessagesEnd | kissoffResend | kissoffFailed | toneClassChange
  | toneGapLimit | clockRelease | clockReleaseIdle => cases hc
  | configReadDone => exact .of_same (by
      unfold beginSampling joinBus loadImage
      (repeat' split) <;> exact ⟨by simp, by simp⟩)
  | linesLost => exact .after (State.hangUp_hush _ _) ⟨rfl, rfl⟩
  | @linesChanged volts =>
    have hwatch : s.Hush (watchLine s (s.linesTimed volts)) := by
      refine .of_fields ?_
      unfold watchLine
      (repeat' split) <;> exact ⟨rfl, rfl, rfl, rfl⟩
    exact .next hwatch (by simp)
  | peerIdleLimit | yieldWaitExpiry => exact s.holderGone_hush _
  | transmitError => exact .after (State.transmitError_hush _ _ _ s) ⟨rfl, rfl⟩
  | stuckEntry =>
    dsimp only
    split
    · exact .of_same (by simp)
    · exact .after (State.enterSolo_hush _) (by simp)
  | stuckExit => dsimp only; split <;> exact .of_same (by simp)
  | claimReceived => exact .after (t := s.heard _ _) (State.takeClaim_hush _ _) ⟨rfl, rfl⟩
  | objectReceived => exact .after (t := s.heard _ _) (State.takeObject_hush _ _) ⟨rfl, rfl⟩
  | releaseReceived => exact .after (t := s.heard _ _) (State.takeRelease_hush _ _) ⟨rfl, rfl⟩
  | offerReceived => exact .after (t := s.heard _ _) (.of_carryOnly (State.takeOffer_carryOnly _ _)) ⟨rfl, rfl⟩
  | acceptReceived => exact .after (t := s.heard _ _) (.of_carryOnly (State.takeAccept_carryOnly _ _)) ⟨rfl, rfl⟩
  | carryReceived => exact .after (t := s.heard _ _) (.of_carryOnly (State.takeCarry_carryOnly _ _)) ⟨rfl, rfl⟩
  | outcomeReceived => exact .after (t := s.heard _ _) (.of_carryOnly (State.takeOutcome_carryOnly _ _)) ⟨rfl, rfl⟩
  | stateReceived => exact .after (t := s.heard _ _) (.of_carryOnly (State.takeState_carryOnly _ _)) ⟨rfl, rfl⟩
  | sent => exact .after (State.concludeSending_hush _ _) ⟨rfl, rfl⟩
  | ownGuardPasses =>
    dsimp only
    split
    · exact .after (State.reportGuardDone_hush _) ⟨rfl, rfl⟩
    · exact .of_same ⟨rfl, rfl⟩
  | offerWindowExpiry => exact .of_carryOnly (s.offerUnanswered_carryOnly _)
  | clockWarm | clockSteady => exact .after (State.reportFastReady_hush _) ⟨rfl, rfl⟩
  | clockFailInClaim => exact .after (State.abandonForClock_hush _ _) ⟨rfl, rfl⟩
  | bargeClearingEnd => exact .of_fields ⟨rfl, rfl, rfl, rfl⟩
  | dialToneWaitExpiry | handshakeWaitExpiry | lineLostTimerExpiry => exact s.hangUp_hush _
  | busyPeriodLimit | busyCadenceUnread | handshakeJudged => exact .of_fields ⟨rfl, rfl, rfl, rfl⟩
  | busyCadence =>
    exact .trans (.of_fields (t := s.cadenceReported) ⟨rfl, rfl, rfl, rfl⟩) (State.hangUp_hush _ _)
  | sendEnd => exact .of_stop ⟨by simp, by simp⟩
  | kissoffJudged =>
    refine .trans (.of_fields ?_) (State.afterDelivery_hush _)
    exact ⟨rfl, rfl, rfl, by simp [State.deliverInHand]⟩
  | hangUpHoldEnd => exact .of_stop ⟨by simp [State.enterIdle, CallEngine.idle], by simp [State.enterIdle, CallEngine.idle]⟩
  | _ => first | exact .of_same ⟨rfl, rfl⟩ | exact .of_same (by simp)

theorem State.sounding_false_iff {s : State} {silent : Bool} : s.sounding silent = true ↔ s.atx ≠ [] ∧ silent = false := by
  simp [State.sounding]

theorem State.hear_cls (next : ToneClass) (ms : Nat) (s : State) : (s.hear next ms).tone.cls = next := by
  unfold State.hear
  split <;> rfl

theorem State.hear_atx (next : ToneClass) (ms : Nat) (s : State) : (s.hear next ms).atx = s.atx := by
  unfold State.hear
  split <;> rfl

/-- The generator sends nothing, or the class is NONE (R121). -/
def State.Mute (s : State) : Prop := s.atx = [] ∨ s.tone.cls = .none

theorem State.Mute.hush {s t : State} (hs : s.Mute) (h : s.Hush t) : t.Mute := by
  rcases h with h | ⟨ha, ht⟩
  · exact .inl h
  · exact hs.imp ha.trans ht.trans

/-- The generator starts with the class NONE, and no report but one in a silence brings a class while it sends. -/
theorem State.Effect.mute {s b u : State} {c : Instr} {e : Ending} (h : s.Effect c e b u) (hs : s.Mute)
    (hc : ∀ audio ms, c ≠ .toneClassChange audio ms true) : u.Mute := by
  cases hm : movesTone c with
  | false => exact hs.hush (h.hush hm)
  | true =>
    cases h with
    | idle => exact hs
    | reset => exact .inl rfl
    | dialToneJudged =>
      have hdial : s.lineProved.enterDial.Mute := State.dialFrom_mute _ _ rfl
      exact hdial.hush (.of_same ⟨State.refreshTrouble_call _, State.refreshTrouble_tone _⟩)
    | digitEnd ht => exact State.dialFrom_mute _ _ (State.timing_iff.mp ht).1
    | settleEnd | betweenMessagesEnd | kissoffResend => exact .inr rfl
    | kissoffFailed => exact hs.hush (s.hangUp_hush _)
    | @toneClassChange audio ms silent hhear =>
      have hsilent : silent = false := by
        cases silent with
        | true => exact absurd rfl (hc audio ms)
        | false => rfl
      by_cases ha : s.atx = []
      · exact .inl ((State.hear_atx _ _ _).trans ha)
      · refine .inr ((State.hear_cls _ _ _).trans ?_)
        exact if_pos (State.sounding_false_iff.mpr ⟨ha, hsilent⟩)
    | toneGapLimit => exact .inr (State.hear_cls _ _ _)
    | clockRelease => exact .inr rfl
    | clockReleaseIdle => exact hs
    | sent hsent => exact absurd hm (by simp [sentType_movesTone hsent])
    | clash hreceipt | unread hreceipt => exact hs
    | _ => cases hm

/-- The busy count as a period ends (R122). -/
theorem State.hear_handshake {s : State} (h : s.call.state = .handshake) (next : ToneClass) (ms : Nat) :
    s.hear next ms = { s with tone := { s.tone.countPeriod next ms with cls := next } } := if_pos h

/-- Any other period takes the count back to 0 (R122). -/
theorem Tone.countPeriod_broken {next : ToneClass} {ms : Nat} {t : Tone} (h : ms < 200 ∨ 600 < ms ∨
    t.cls = .handshake ∨ t.cls = .kissoff ∨ next = .handshake ∨ next = .kissoff) :
    (t.countPeriod next ms).busyCycles = 0 ∧ (t.countPeriod next ms).dialHalf = false := by
  have hperiod : t.cls ≠ .handshake → t.cls ≠ .kissoff → next ≠ .handshake → next ≠ .kissoff →
      ¬ busyPeriod ms = true := fun h1 h2 h3 h4 hb => by
    obtain ⟨hlo, hhi⟩ : 200 ≤ ms ∧ ms ≤ 600 := of_decide_eq_true hb
    rcases h with h | h | h | h | h | h
    · omega
    · omega
    · exact h1 h
    · exact h2 h
    · exact h3 h
    · exact h4 h
  unfold Tone.countPeriod
  split
  · next hd => rw [if_neg (hperiod (by simp [hd]) (by simp [hd]) (by simp) (by simp))]; exact ⟨rfl, rfl⟩
  · next hd => rw [if_neg (hperiod (by simp [hd]) (by simp [hd]) (by simp) (by simp))]; exact ⟨rfl, rfl⟩
  · exact ⟨rfl, rfl⟩

/-- Under a tone nothing but NONE is heard (R121). -/
theorem State.classHeard_sending {s : State} (h : s.atx ≠ []) (audio : List Nat) : s.classHeard audio false = .none :=
  if_pos (State.sounding_false_iff.mpr ⟨h, rfl⟩)

theorem exec_toneClassChange_sending {s : State} (h : s.atx ≠ []) (hn : s.tone.cls = .none) (audio : List Nat) (ms : Nat) :
    exec (.toneClassChange audio ms false) s = .next s := by
  change (if _ then _ else _) = _
  rw [State.classHeard_sending h, if_neg (by simp [hn])]

/-- Settles O56: the busy count by the two classes at a change, and the class NONE under a tone by `State.Effect.mute`. -/
theorem tonesAreHeard : Obligations.TonesAreHeard := by
  unfold Obligations.TonesAreHeard
  refine ⟨fun s audio ms silent c next hhear hc => ?_, fun s hs ht => if_pos ⟨hs, ht⟩, fun s hs ht hb => ?_,
    fun s audio ms hatx => ⟨fun hnone => ⟨?_, ?_⟩, fun hhear => ?_⟩, fun c s t hc hs h hatx => ?_⟩
  · have hexec : exec c s = .next (s.hear next ms) := by
      rcases hc with ⟨rfl, hnext, hne⟩ | ⟨rfl, rfl, hne⟩
      · have hheard : s.classHeard audio silent = next := by
          rw [hnext, State.classHeard]
          exact if_congr State.sounding_false_iff rfl rfl
        change (if _ then _ else _) = _
        rw [hheard, if_pos (by simp [hhear, hne])]
      · exact if_pos (by simp [hhear, hne])
    refine ⟨_, hexec, ?_, State.hear_cls _ _ _, fun hs => ?_, fun hs hreset => ?_, fun hs h2 h6 hd hn => ?_,
      fun hs h2 h6 hd hn => ?_⟩
    · unfold State.hear
      split <;> rfl
    · rw [State.hear, if_neg hs]
    · rw [State.hear_handshake hs]
      exact Tone.countPeriod_broken hreset
    · rw [State.hear_handshake hs]
      simp [Tone.countPeriod, hd, hn, busyPeriod, h2, h6]
    · rw [State.hear_handshake hs]
      simp [Tone.countPeriod, hd, hn, busyPeriod, h2, h6]
  · refine (if_pos ⟨hs, hb⟩).trans (if_neg fun h => ?_)
    exact absurd (ht.symm.trans (State.timing_iff.mp h).2) (by decide)
  · exact exec_toneClassChange_sending hatx hnone audio ms
  · exact if_neg (by simp [hnone])
  · by_cases hnone : s.tone.cls = .none
    · exact ⟨s, exec_toneClassChange_sending hatx hnone audio ms, hnone⟩
    · refine ⟨s.hear .none ms, ?_, State.hear_cls _ _ _⟩
      change (if _ then _ else _) = _
      rw [State.classHeard_sending hatx, if_pos (by simp [hhear, Ne.symm hnone])]
  · obtain ⟨e, b, u, rfl, hu⟩ := exec_effect h
    have hmute : s.Mute := or_iff_not_imp_left.mpr hs
    exact ((hu.mute hmute hc).hush (e.close_hush u b)).resolve_left hatx

end Sys2Proof.Machine

/-! ### Own frames that end on the bus (R82, R94, R104, R147, R150, R157, R175) -/

namespace Sys2Proof.Machine

open Host

theorem Rbc.busOff_iff {b : Rbc} : b.busOff = true ↔ 192 ≤ b.txErrors := by
  unfold Rbc.busOff Rbc.confinement
  rw [decide_eq_true_iff]
  split
  · simp_all
  · split <;> simp_all

/-- An ACK error brings no controller into BUS_OFF (R86). -/
theorem Rbc.raiseTxForAck_busOff (b : Rbc) : b.raiseTxForAck.busOff = b.busOff := by
  rw [Bool.eq_iff_iff, Rbc.busOff_iff, Rbc.busOff_iff]
  unfold Rbc.raiseTxForAck Rbc.raiseTx
  split
  · simp only
    omega
  · rfl

theorem Rbc.dropSending_sendingSlot (b : Rbc) : b.dropSending.sendingSlot = none := by
  rw [sendingSlot_none_iff]
  intro x hx
  simpa using (List.mem_filter.mp hx).2

theorem Rbc.readFailedAttempt_frame (read : List Bool) (echo : BitVec 8) (b : Rbc) :
    ∃ r d v, b.readFailedAttempt read echo = { b with recessiveRun := r, dominantRun := d, recovery := v } := by
  unfold Rbc.readFailedAttempt Rbc.signalError
  obtain ⟨r, d, v, h⟩ := Rbc.readBits_frame read b
  split
  · obtain ⟨r', d', v', h'⟩ := Rbc.readBits_frame (bitsOf 8 echo.toNat) (b.readBits read)
    exact ⟨r', d', v', by rw [h', h]⟩
  · exact ⟨r, d, v, h⟩

theorem Rbc.busOff_congr {a b : Rbc} (h : a.txErrors = b.txErrors) : a.busOff = b.busOff := by
  rw [Bool.eq_iff_iff, Rbc.busOff_iff, Rbc.busOff_iff, h]

/-- The third ACK error of a frame brings no BUS_OFF (R86). -/
theorem Rbc.afterUnheard_busOff (read : List Bool) (echo : BitVec 8) (b : Rbc) :
    (b.afterUnheard read echo).busOff = b.busOff := by
  obtain ⟨r, d, v, h⟩ := Rbc.readFailedAttempt_frame read echo b
  have hack : (b.afterUnheard read echo).busOff = ((b.readFailedAttempt read echo).raiseTxForAck).busOff :=
    Rbc.busOff_congr rfl
  rw [hack, Rbc.raiseTxForAck_busOff, h]
  exact Rbc.busOff_congr rfl

theorem State.enterBusOff_of_same {before s : State} (h : s.rbc.busOff = before.rbc.busOff) : before.enterBusOff s = s := by
  unfold State.enterBusOff
  rw [if_neg]
  rw [h]
  simp

theorem State.sent_exec {type : FrameType} {sent : Instr} (hsent : sentType sent = some type) (s : State) :
    exec sent s = .next (s.sent type) := by
  cases sent <;> first
    | (obtain rfl := Option.some.inj hsent; rfl)
    | cases hsent

/-- An own frame that ends on the bus, acknowledged or at its third ACK error, empties its slot, and its owner takes the
outcome (R82, R91, R94). -/
theorem State.Ends.exec {s : State} {x : Slot} {type : FrameType} {sent c : Instr} {b : Rbc}
    (h : s.Ends x type sent c b) (hx : s.rbc.sendingSlot = some x) (hsent : sentType sent = some type) :
    b.sendingSlot = none ∧ exec c s =
      .next (s.settle (State.frameEnded x { s with rbc := b, carry := s.carry.slotEmptied x.marker })) := by
  rcases h with ⟨rfl, htype, rfl⟩ | ⟨read, echo, rfl, hstuck, hthird, hloses, rfl⟩
  · refine ⟨Rbc.dropSending_sendingSlot _, ?_⟩
    rw [State.sent_exec hsent, State.sent, hx]
    simp only [if_pos htype]
    rfl
  · refine ⟨Rbc.dropSending_sendingSlot _, ?_⟩
    have hguard : (ErrorKind.ack.byTransmitter && !s.rbc.stuck && s.rbc.losesAttempt .ack x.frame read) = true := by
      rw [hstuck, hloses]
      rfl
    have hexec : Sys2Proof.Machine.exec (.transmitError .ack read echo) s = .next (s.settle (s.enterBusOff
        (State.afterError .ack x { s with
          rbc := ((s.rbc.readFailedAttempt read echo).countFailedAttempt .ack).suspendIfPassive }))) := by
      change execTransmitError _ _ _ _ = _
      simp only [execTransmitError, hx, if_pos hguard]
    have hthird' : 3 ≤ x.unacked + 1 := by omega
    have hafter : State.afterError .ack x { s with
          rbc := ((s.rbc.readFailedAttempt read echo).countFailedAttempt .ack).suspendIfPassive } =
        State.frameEnded x { s with rbc := s.rbc.afterUnheard read echo, carry := s.carry.slotEmptied x.marker } := by
      rw [State.afterError, if_pos rfl, if_pos hthird']
      rfl
    rw [hexec, hafter, State.enterBusOff_of_same]
    rw [Rbc.busOff_congr (State.frameEnded_keepsBus _ x).txErrors]
    exact Rbc.afterUnheard_busOff read echo s.rbc

/-- Only an OUTCOME's slot stands in the outcome list (R157). -/
theorem CarryUnit.slotEmptied_of_ne {m : Marker} (h : ∀ origin seq result, m ≠ .outcome origin seq result) (c : CarryUnit) :
    c.slotEmptied m = c :=
  foldl_slotEmptied_outcomes (l := [⟨m, claimFrame 0 .l0 false, 0, false, false⟩]) c fun y hy => by
    rw [List.mem_singleton.mp hy]
    exact h

/-- An OUTCOME's entry leaves the list (R157). -/
theorem CarryUnit.slotEmptied_outcome (origin : Nat) (seq : Byte) (result : Result) (c : CarryUnit) :
    c.slotEmptied (.outcome origin seq result) = { c with outcomes := c.outcomes.erase ⟨origin, seq, result, true⟩ } := by
  have hserved : CarryUnit.servedBy (.outcome origin seq result) true =
      fun e => decide (e = ⟨origin, seq, result, true⟩) := by
    funext e
    rcases e with ⟨⟩
    rw [CarryUnit.servedBy, ← Bool.decide_and, decide_eq_decide]
    simp [and_assoc, eq_comm]
  rw [CarryUnit.slotEmptied, hserved, List.erase_eq_eraseP']
  congr 1

/-- A RELEASE that waited is owed in the place of one that comes later, and nothing else moves (R113). -/
theorem State.releaseEnded_settled (k : LineId) (s : State) : State.Settled s (s.releaseEnded k) := by
  have hperm : (s.releaseEnded k).rbc.owed.Perm s.rbc.owed :=
    (List.perm_append_comm).trans (List.filter_append_perm (Marker.releases k) s.rbc.owed)
  have hsend : ∀ m, (s.releaseEnded k).toSend m = s.toSend m := fun m => by
    cases m <;> simp only [State.toSend, hperm.count_eq] <;> rfl
  exact { State.Settled.refl s with
    loader := rfl
    time := rfl
    owed := fun m _ h => by
      rw [owes_iff] at h ⊢
      exact h.imp hperm.mem_iff.mpr id
    noMore := fun m => Nat.le_add_right_of_le (hsend m).le }

theorem State.Ends.join {s : State} {x : Slot} {type : FrameType} {sent c : Instr} {b : Rbc}
    (h : s.Ends x type sent c b) : b.join = s.rbc.join := by
  rcases h with ⟨_, _, rfl⟩ | ⟨read, echo, _, _, _, _, rfl⟩
  · rfl
  · obtain ⟨r, d, v, hread⟩ := Rbc.readFailedAttempt_frame read echo s.rbc
    simp only [Rbc.afterUnheard, hread, Rbc.countFailedAttempt, Rbc.raiseTxForAck, if_true]
    split <;> rfl

/-- An own frame's end begins no solo mode (R86, R88). -/
theorem State.Ends.solo {s : State} {x : Slot} {type : FrameType} {sent c : Instr} {b : Rbc}
    (h : s.Ends x type sent c b) (hs : s.rbc.solo = false) : b.solo = false := by
  obtain ⟨hbusOff, hstuck⟩ := Bool.or_eq_false_iff.mp hs
  rcases h with ⟨_, _, rfl⟩ | ⟨read, echo, _, _, _, _, rfl⟩
  · have hlow : s.rbc.afterSent.busOff = false := by
      rw [Bool.eq_false_iff, ne_eq, Rbc.busOff_iff] at hbusOff ⊢
      change ¬ 192 ≤ s.rbc.txErrors - 1
      omega
    exact Bool.or_eq_false_iff.mpr ⟨hlow, hstuck⟩
  · obtain ⟨r, d, v, hread⟩ := Rbc.readFailedAttempt_frame read echo s.rbc
    refine Bool.or_eq_false_iff.mpr ⟨(Rbc.afterUnheard_busOff read echo s.rbc).trans hbusOff, ?_⟩
    simp only [Rbc.afterUnheard, hread, Rbc.countFailedAttempt, Rbc.raiseTxForAck, if_true]
    split <;> exact hstuck

/-! #### The accept-pending marker at the end of a step (R155) -/

theorem State.makeOffer_accept (s : State) : s.makeOffer.carry.accept = s.carry.accept := by
  unfold State.makeOffer
  (repeat' split) <;> rfl

theorem State.chooseAndOffer_accept (s : State) : s.chooseAndOffer.carry.accept = s.carry.accept := by
  unfold State.chooseAndOffer
  dsimp only
  (repeat' split) <;> simp [State.makeOffer_accept]

theorem State.settle_accept (before s : State) :
    (before.settle s).carry.accept = (before.checkAccept s).carry.accept :=
  (((State.noteReported_framesOnly before _).trans (State.oweState_framesOnly _)).trans
    (State.loadSlots_framesOnly _)).sameAccept.trans (State.chooseAndOffer_accept _)

/-- A station that stays eligible keeps its marker. -/
theorem State.checkAccept_of_eligible {before s : State} (h : before.eligible = true → s.eligible = true) :
    before.checkAccept s = s := by
  unfold State.checkAccept
  rw [if_neg]
  intro hc
  simp only [Bool.and_eq_true, Bool.not_eq_true'] at hc
  obtain ⟨⟨_, hb⟩, hs⟩ := hc
  exact absurd (h hb) (by simp [hs])

/-- Settles O49: the owner's part of each frame, by its marker. -/
theorem lineFramesSentComplete : Obligations.LineFramesSentComplete := by
  unfold Obligations.LineFramesSentComplete
  intro s x c b hx
  refine ⟨fun k key barge hm hclaim hplaced hkey h => ?_, fun k hm h => ?_, fun k reason hm h => ?_⟩
  · obtain ⟨hb, hexec⟩ := h.exec hx rfl
    rw [State.frameEnded, hm, CarryUnit.slotEmptied_of_ne (by simp)] at hexec
    have hended : State.claimEnded k key { s with rbc := b } =
        { s with rbc := b, view := s.view.update k Entry.startOwnGuard } := if_pos ⟨hclaim, hplaced, hkey⟩
    have hexec' := hexec.trans (congrArg (fun u => Outcome.next (s.settle u)) hended)
    exact ⟨_, hexec', (State.settle_closed _ _).noSending hb, State.settle_settled _ _⟩
  · obtain ⟨hb, hexec⟩ := h.exec hx rfl
    rw [State.frameEnded, hm, CarryUnit.slotEmptied_of_ne (by simp)] at hexec
    exact ⟨_, hexec, (State.settle_closed _ _).noSending hb, State.settle_settled _ _⟩
  · obtain ⟨hb, hexec⟩ := h.exec hx rfl
    rw [State.frameEnded, hm, CarryUnit.slotEmptied_of_ne (by simp)] at hexec
    exact ⟨_, hexec, (State.settle_closed _ _).noSending hb, (State.releaseEnded_settled k _).trans (State.settle_settled _ _)⟩

/-- Settles O50: likewise. -/
theorem carryFramesSentComplete : Obligations.CarryFramesSentComplete := by
  unfold Obligations.CarryFramesSentComplete
  intro s x c b hx
  refine ⟨fun seq key hm ho h => ?_, fun origin seq value hm h => ?_, fun seq key acceptor r hm hq ho hr h => ?_,
    fun origin seq result hm h => ?_, fun hm h => ?_⟩ <;> obtain ⟨hb, hexec⟩ := h.exec hx rfl
  · rw [State.frameEnded, hm, CarryUnit.slotEmptied_of_ne (by simp)] at hexec
    have hended : State.offerEnded seq key { s with rbc := b } =
        { s with rbc := b, carry := { s.carry with offer := some ⟨seq, key, .window⟩ } } := if_pos ho
    have hexec' := hexec.trans (congrArg (fun u => Outcome.next (s.settle u)) hended)
    exact ⟨_, hexec', (State.settle_closed _ _).noSending hb, State.settle_settled _ _⟩
  · rw [State.frameEnded, hm, CarryUnit.slotEmptied_of_ne (by simp)] at hexec
    have heligible : s.eligible = true → State.eligible { s with rbc := b } = true := fun he => by
      simp only [State.eligible, State.solo, Bool.and_eq_true, Bool.not_eq_true', decide_eq_true_iff] at he ⊢
      obtain ⟨⟨⟨⟨⟨⟨⟨⟨hw, hf⟩, hs⟩, hj⟩, hl⟩, hn⟩, hc⟩, hu⟩, hr⟩ := he
      exact ⟨⟨⟨⟨⟨⟨⟨⟨hw, hf⟩, h.solo hs⟩, h.join.trans hj⟩, hl⟩, hn⟩, hc⟩, hu⟩, hr⟩
    refine ⟨s.settle { s with rbc := b }, hexec, (State.settle_closed _ _).noSending hb, ?_, State.settle_settled _ _⟩
    rw [State.settle_accept, State.checkAccept_of_eligible heligible]
  · rw [State.frameEnded, hm, CarryUnit.slotEmptied_of_ne (by simp)] at hexec
    have hended : State.carryEnded seq acceptor { s with rbc := b } = { s with
        rbc := b
        carry := { s.carry with offer := none }
        queue := s.queue.modify r.order fun y => { y with state := .handed acceptor s.time } } := by
      simp only [State.carryEnded, ho, hr, and_self, if_true]
    have hexec' := hexec.trans (congrArg (fun u => Outcome.next (s.settle u)) hended)
    have hclosed := State.settle_closed s { s with
        rbc := b
        carry := { s.carry with offer := none }
        queue := s.queue.modify r.order fun y => { y with state := .handed acceptor s.time } }
    refine ⟨_, hexec', hclosed.noSending hb, hclosed.records ?_ _ (modify_self (AlertQueue.findSeq_mem hr).1 _) ?_,
      hclosed.offerNew rfl, State.settle_settled _ _⟩
    · exact (modify_state_orders s.queue r.order _).symm ▸ hq.ordered.1
    · simp
  · rw [State.frameEnded, hm, CarryUnit.slotEmptied_outcome] at hexec
    exact ⟨_, hexec, (State.settle_closed _ _).noSending hb, State.settle_settled _ _⟩
  · rw [State.frameEnded, hm, CarryUnit.slotEmptied_of_ne (by simp)] at hexec
    exact ⟨_, hexec, (State.settle_closed _ _).noSending hb, State.settle_settled _ _⟩

end Sys2Proof.Machine

/-! ### The controller's own conditions (R75, R78, R79, R85, R95) -/

namespace Sys2Proof.Machine

open Host

theorem Rbc.readBits_append (bits more : List Bool) (b : Rbc) :
    b.readBits (bits ++ more) = (b.readBits bits).readBits more := List.foldl_append

theorem Rbc.readBits_busOff (bits : List Bool) (b : Rbc) : (b.readBits bits).busOff = b.busOff := by
  obtain ⟨r, d, v, h⟩ := Rbc.readBits_frame bits b
  rw [h]
  exact Rbc.busOff_congr rfl

theorem Rbc.listens_of {b : Rbc} (hj : b.join ≠ .absent) (hs : b.stuck = false) (hn : b.sendingSlot = none) :
    b.listens = true := by simp [Rbc.listens, Rbc.joined, hj, hs, hn]

theorem Rbc.idle_iff {b : Rbc} : b.idle = true ↔ 11 ≤ b.recessiveRun := decide_eq_true_iff

/-- The slot that starts is the lowest, and the first of the lowest (R79). -/
theorem Rbc.lowestSlot_spec {l : List Slot} (h : l ≠ []) : ∃ m i, Rbc.lowestSlot l = some m ∧ l[i]? = some m ∧
    (∀ x ∈ l, m.frame.arbitration ≤ x.frame.arbitration) ∧
    ∀ (j : Nat) x, j < i → l[j]? = some x → m.frame.arbitration < x.frame.arbitration := by
  induction l with
  | nil => exact absurd rfl h
  | cons s rest ih =>
    by_cases hr : rest = []
    · subst hr
      exact ⟨s, 0, rfl, rfl, by simp, fun j x hj => absurd hj (Nat.not_lt_zero j)⟩
    · obtain ⟨m, i, hm, hi, hmin, hfirst⟩ := ih hr
      simp only [Rbc.lowestSlot, hm]
      split
      · next hlt =>
        refine ⟨m, i + 1, rfl, hi, List.forall_mem_cons.mpr ⟨Nat.le_of_lt hlt, hmin⟩, fun j x hj hx => ?_⟩
        cases j with
        | zero => exact Option.some.inj hx ▸ hlt
        | succ j => exact hfirst j x (Nat.lt_of_succ_lt_succ hj) hx
      · next hle =>
        refine ⟨s, 0, rfl, rfl, List.forall_mem_cons.mpr ⟨Nat.le_refl _, fun x hx => ?_⟩, fun j x hj =>
          absurd hj (Nat.not_lt_zero j)⟩
        exact (Nat.le_of_not_lt hle).trans (hmin x hx)

/-- The first of the slots equal to one is changed in its place. -/
theorem Rbc.changeFirst_eq_set (f : Slot → Slot) {m : Slot} {l : List Slot} {i : Nat} (hi : l[i]? = some m)
    (hfirst : ∀ (j : Nat) x, j < i → l[j]? = some x → x ≠ m) : Rbc.changeFirst f m l = l.set i (f m) := by
  induction l generalizing i with
  | nil => cases hi
  | cons s rest ih =>
    cases i with
    | zero =>
      obtain rfl := Option.some.inj hi
      simp [Rbc.changeFirst]
    | succ i =>
      have hs : s ≠ m := hfirst 0 s (Nat.succ_pos i) rfl
      simp only [Rbc.changeFirst, if_neg hs, List.set_cons_succ]
      rw [ih hi fun j x hj hx => hfirst (j + 1) x (Nat.succ_lt_succ hj) hx]

/-- Settles O33. -/
theorem wireConditionsComplete : Obligations.WireConditionsComplete := by
  unfold Obligations.WireConditionsComplete
  refine ⟨fun b bits => ⟨?_, ?_⟩, fun s hj => if_pos hj, fun s hj hs hn => ?_⟩
  · rw [Rbc.readBits_append]
    change Rbc.readBit _ true = _
    simp only [Rbc.readBit, if_true, Rbc.readBits_busOff]
  · rw [Rbc.readBits_append]
    rfl
  · have hlisten := Rbc.listens_of hj hs hn
    refine ⟨fun read hlt hread => if_pos ?_, fun hidle => ?_, fun hidle hsus => ?_, fun hjoin hbo hsus hidle hne start => ?_⟩
    · have hnot : s.rbc.idle = false := by simpa [Rbc.idle] using hlt
      simp [hlisten, hnot, hread]
    · exact if_pos (by simp [hlisten, Rbc.idle_iff.mpr hidle])
    · refine ⟨_, if_pos (by simp [hsus, hlisten, Rbc.idle_iff.mpr hidle]), rfl, Nat.le_max_left _ _, rfl, rfl⟩
    · obtain ⟨m, i, hm, hi, hmin, hfirst⟩ := Rbc.lowestSlot_spec hne
      have hstart : s.rbc.mayStart = true := by
        simp [Rbc.mayStart, hlisten, Rbc.idle_iff.mpr hidle, hsus, hbo, hjoin]
      have hset : Rbc.changeFirst (fun x => { x with sending := true }) m s.rbc.slots =
          s.rbc.slots.set i { m with sending := true } :=
        Rbc.changeFirst_eq_set _ hi fun j x hj hx heq => Nat.lt_irrefl _ (heq ▸ hfirst j x hj hx)
      have hexec : exec (.frameStart start) s = .next { s with rbc := (s.rbc.startSending m).readBit start } := by
        change execFrameStart s start = _
        simp only [execFrameStart, if_pos hstart, hm]
      refine ⟨_, m, i, hexec, hi, hmin, hfirst, ?_⟩
      have hbusOff : (s.rbc.startSending m).busOff = false := (Rbc.busOff_congr rfl).trans hbo
      rw [Rbc.startSending, hset] at hbusOff ⊢
      cases start
      · rfl
      · simp [Rbc.readBit, hbusOff]

end Sys2Proof.Machine

/-! ### What a receiver reads of a frame (R76, R77, R81, R83)

`Reader.Stands` says of every reader state what the bits read so far are: in the region the stuffed bits kept, with the run
at their end; at the ACK slot a whole stuffed region. The reader's states are then read off the last bit. -/

namespace Sys2Proof.Machine

open Host

/-! #### Insertion bit by bit -/

/-- The run in which the stuffed bits end, the inserted bit counted, after one more bit (R77). -/
def stuffStep (s : Bool × Nat) (b : Bool) : Bool × Nat :=
  if b = s.1 then if s.2 = 5 then (!b, 1) else (b, s.2 + 1) else (b, 1)

/-- What is sent for one more bit (R77). -/
def stuffOut (s : Bool × Nat) (b : Bool) : List Bool := if b = s.1 ∧ s.2 = 5 then [b, !b] else [b]

theorem stuffFrom_concat (bits : List Bool) (b last : Bool) (run : Nat) : stuffFrom last run (bits ++ [b]) =
    stuffFrom last run bits ++ stuffOut (bits.foldl stuffStep (last, run)) b := by
  induction bits generalizing last run with
  | nil =>
    simp only [List.nil_append, stuffFrom, List.foldl_nil, stuffOut]
    split
    · next hb => split <;> simp_all
    · next hb => simp [hb]
  | cons x rest ih =>
    simp only [List.cons_append, stuffFrom, List.foldl_cons, stuffStep]
    split
    · split <;> simp [ih]
    · simp [ih]

theorem stuffFrom_append (bits more : List Bool) (last : Bool) (run : Nat) :
    stuffFrom last run bits <+: stuffFrom last run (bits ++ more) := by
  induction more using List.reverseRecOn with
  | nil => simp
  | append_singleton more b ih =>
    rw [← List.append_assoc, stuffFrom_concat]
    exact ih.trans (List.prefix_append _ _)

/-- A list ends in a run of n equal bits and no longer one. -/
def EndsIn (n : Nat) (x : Bool) (l : List Bool) : Prop := ∃ pre, l = pre ++ List.replicate n x ∧ pre.getLast? ≠ some x

namespace EndsIn

variable {n : Nat} {x y : Bool} {l : List Bool}

theorem grow (h : EndsIn n x l) : EndsIn (n + 1) x (l ++ [x]) := by
  obtain ⟨pre, rfl, hpre⟩ := h
  exact ⟨pre, by rw [List.replicate_succ', List.append_assoc], hpre⟩

theorem turn (h : EndsIn n x l) (hn : 1 ≤ n) (hy : y ≠ x) : EndsIn 1 y (l ++ [y]) := by
  obtain ⟨pre, rfl, _⟩ := h
  refine ⟨_, rfl, ?_⟩
  obtain ⟨m, rfl⟩ := Nat.exists_eq_succ_of_ne_zero (Nat.ne_of_gt hn)
  rw [List.replicate_succ', ← List.append_assoc, List.getLast?_concat]
  exact fun h => hy (Option.some.inj h).symm

/-- A run of so many bits at the end is of that bit, and no longer. -/
theorem suffix (h : EndsIn n x l) (hn : 1 ≤ n) {m : Nat} (hm : 1 ≤ m) (hs : List.replicate m y <:+ l) :
    y = x ∧ m ≤ n := by
  obtain ⟨pre, rfl, hpre⟩ := h
  obtain ⟨q, hq⟩ := hs
  have hlast : y = x := by
    have h1 := congrArg List.getLast? hq
    obtain ⟨m, rfl⟩ := Nat.exists_eq_succ_of_ne_zero (Nat.ne_of_gt hm)
    obtain ⟨n, rfl⟩ := Nat.exists_eq_succ_of_ne_zero (Nat.ne_of_gt hn)
    rw [List.replicate_succ', List.replicate_succ', ← List.append_assoc, ← List.append_assoc, List.getLast?_concat,
      List.getLast?_concat] at h1
    exact Option.some.inj h1
  subst hlast
  refine ⟨rfl, Nat.le_of_not_lt fun hlt => hpre ?_⟩
  obtain ⟨d, rfl⟩ := Nat.exists_eq_add_of_lt hlt
  have hsplit : List.replicate (n + d + 1) y = List.replicate d y ++ [y] ++ List.replicate n y := by
    rw [← List.replicate_succ', List.replicate_append_replicate]
    congr 1
    omega
  rw [hsplit, ← List.append_assoc] at hq
  rw [← List.append_cancel_right hq, ← List.append_assoc, List.getLast?_concat]

end EndsIn

/-! #### The length of a region (R76) -/

/-- The bits from the start-of-frame bit on that the type fixes, the type bits still to come taken dominant. -/
def regionNeeded (kept : List Bool) : Nat :=
  25 + 8 * (FrameType.ofBits (kept[1]?.getD false) (kept[2]?.getD false) (kept[3]?.getD false)).payloadLength

theorem le_regionNeeded (kept : List Bool) : 25 ≤ regionNeeded kept := Nat.le_add_right _ _

theorem regionWhole_iff {kept : List Bool} : regionWhole kept = true ↔ kept.length = regionNeeded kept := by
  unfold regionWhole
  split
  · rw [decide_eq_true_iff]
    rfl
  · next hshort =>
    have hlen : kept.length < 25 := by
      by_contra hlong
      obtain _ | ⟨start, _ | ⟨a, _ | ⟨b, _ | ⟨c, rest⟩⟩⟩⟩ := kept
      case cons.cons.cons.cons => exact hshort start a b c rest rfl
      all_goals simp at hlong
    have := le_regionNeeded kept
    simp only [Bool.false_eq_true, false_iff]
    omega

theorem regionNeeded_append {kept more : List Bool} (h : 4 ≤ kept.length) :
    regionNeeded (kept ++ more) = regionNeeded kept := by
  unfold regionNeeded
  rw [List.getElem?_append_left (by omega), List.getElem?_append_left (by omega), List.getElem?_append_left (by omega)]

theorem regionNeeded_append_dominant (kept : List Bool) (n : Nat) :
    regionNeeded (kept ++ List.replicate n false) = regionNeeded kept := by
  have hget : ∀ i, (kept ++ List.replicate n false)[i]?.getD false = kept[i]?.getD false := fun i => by
    by_cases hi : i < kept.length
    · rw [List.getElem?_append_left hi]
    · rw [List.getElem?_append_right (Nat.le_of_not_lt hi), List.getElem?_eq_none (Nat.le_of_not_lt hi),
        List.getElem?_replicate]
      split <;> rfl
  rw [regionNeeded, hget, hget, hget, regionNeeded]

/-- A region not yet whole takes one more bit. -/
theorem regionNeeded_concat {kept : List Bool} (h : kept.length < regionNeeded kept) (b : Bool) :
    (kept ++ [b]).length ≤ regionNeeded (kept ++ [b]) := by
  rw [List.length_append, List.length_singleton]
  by_cases hk : 4 ≤ kept.length
  · rw [regionNeeded_append hk]
    exact h
  · have := le_regionNeeded (kept ++ [b])
    omega

/-! #### A reader and the bits it has read -/

namespace Reader

theorem after_concat (bits : List Bool) (b : Bool) : after (bits ++ [b]) = (after bits).read b := by
  simp [after, List.foldl_append]

theorem after_append (bits more : List Bool) : after (bits ++ more) = more.foldl (fun r bit => r.read bit) (after bits) :=
  List.foldl_append

/-- The bits kept, stuffed, are those read; they end in a run. -/
structure Kept (bits kept : List Bool) (last : Bool) (run : Nat) : Prop where
  starts : kept.head? = some false
  growing : kept.length ≤ regionNeeded kept
  sent : stuff kept = false :: bits
  state : kept.foldl stuffStep (true, 0) = (last, run)
  run_pos : 1 ≤ run
  run_le : run ≤ 5
  ends : EndsIn run last (false :: bits)

/-- What the bits read so far are, by the reader's state. -/
def Stands (bits : List Bool) : Reader → Prop
  | .region kept last run =>
    (Kept bits kept last run ∧ kept.length < regionNeeded kept) ∨
      (run = 6 ∧ EndsIn 6 last (false :: bits) ∧ Kept (bits ++ [!last]) kept (!last) 1)
  | .ackSlot right => ∃ kept last run, Kept bits kept last run ∧ regionWhole kept = true ∧ right = crcRight kept
  | .ending _ => True
  | .failed _ => True
  | .done => True

theorem Kept.stands_within {bits kept : List Bool} {last : Bool} {run : Nat} (h : Kept bits kept last run) :
    Stands bits (within kept last run) := by
  have hrun : run ≠ 6 := fun h6 => absurd h.run_le (by omega)
  unfold within
  split
  · next hw => exact ⟨kept, last, run, h, (Bool.and_eq_true_iff.mp hw).1, rfl⟩
  · next hw =>
    refine .inl ⟨h, Nat.lt_of_le_of_ne h.growing fun heq => hw ?_⟩
    simp [regionWhole_iff.mpr heq, hrun]

/-- One bit more of a region, with the bit inserted after it if any (R77). -/
theorem Kept.step {bits kept : List Bool} {last : Bool} {run : Nat} (h : Kept bits kept last run)
    (hlt : kept.length < regionNeeded kept) (b : Bool) : Kept (bits ++ stuffOut (last, run) b) (kept ++ [b])
      (stuffStep (last, run) b).1 (stuffStep (last, run) b).2 := by
  have hle := h.run_le
  refine ⟨?_, regionNeeded_concat hlt b, ?_, ?_, ?_, ?_, ?_⟩
  · rw [List.head?_append, h.starts]
    rfl
  · rw [stuff, stuffFrom_concat, h.state, ← List.cons_append, ← h.sent, stuff]
  · rw [List.foldl_append, h.state]
    rfl
  · simp only [stuffStep]
    (repeat' split) <;> omega
  · simp only [stuffStep]
    (repeat' split) <;> omega
  · simp only [stuffStep, stuffOut]
    by_cases hb : b = last
    · subst hb
      by_cases h5 : run = 5
      · simp only [h5, if_true, and_self]
        have := (h5 ▸ h.ends.grow).turn (y := !b) (by decide) (by cases b <;> decide)
        simpa using this
      · simpa [h5] using h.ends.grow
    · simpa [hb] using h.ends.turn h.run_pos hb

/-- A bit read in the region leads to a place that its bits say. -/
theorem Kept.stands_read {bits kept : List Bool} {last : Bool} {run : Nat} (h : Kept bits kept last run)
    (hlt : kept.length < regionNeeded kept) (b : Bool) : Stands (bits ++ [b]) (Reader.read b (.region kept last run)) := by
  have hrun : run ≠ 6 := fun h6 => absurd h.run_le (by omega)
  have hstep := h.step hlt b
  simp only [read, if_neg hrun]
  by_cases hb : b = last
  · subst hb
    by_cases h5 : run = 5
    · subst h5
      rw [if_pos rfl, within, if_neg (by simp)]
      exact .inr ⟨rfl, h.ends.grow, by simpa [stuffOut, stuffStep] using hstep⟩
    · exact Kept.stands_within (by simpa [stuffOut, stuffStep, h5] using hstep)
  · rw [if_neg hb]
    exact Kept.stands_within (by simpa [stuffOut, stuffStep, hb] using hstep)

theorem Kept.within_eq {bits kept : List Bool} {last : Bool} {run : Nat} (h : Kept bits kept last run) :
    within kept last run = if regionWhole kept then .ackSlot (crcRight kept) else .region kept last run := by
  have hrun : run ≠ 6 := fun h6 => absurd h.run_le (by omega)
  simp [within, hrun]

/-- Every reader stands where its bits say. -/
theorem stands_after (bits : List Bool) : Stands bits (after bits) := by
  induction bits using List.reverseRecOn with
  | nil => exact .inl ⟨⟨rfl, by decide, rfl, rfl, Nat.le_refl 1, by decide, [], rfl, by simp⟩, by decide⟩
  | append_singleton bits b ih =>
    rw [after_concat]
    generalize after bits = r at ih
    cases r with
    | region kept last run =>
      rcases ih with ⟨hkept, hlt⟩ | ⟨h6, hends, hkept⟩
      · exact hkept.stands_read hlt b
      · simp only [read, if_pos h6]
        split
        · trivial
        · next hb =>
          have hnot : b = !last := by cases b <;> cases last <;> first | rfl | exact absurd rfl hb
          exact hnot ▸ hkept.stands_within
    | ackSlot right => cases right <;> trivial
    | ending left =>
      simp only [read]
      (repeat' split) <;> trivial
    | failed kind => trivial
    | done => trivial

/-- A stuffed region, read, is kept (R77). -/
theorem after_stuff (kept : List Bool) (hstart : kept.head? = some false) (hgrow : kept.length ≤ regionNeeded kept) :
    ∃ last run, Kept (stuff kept).tail kept last run ∧ after (stuff kept).tail = within kept last run := by
  induction kept using List.reverseRecOn with
  | nil => cases hstart
  | append_singleton kept b ih =>
    rcases List.eq_nil_or_concat' kept with rfl | ⟨_, _, hne⟩
    · obtain rfl := Option.some.inj hstart
      exact ⟨false, 1, ⟨rfl, by decide, rfl, rfl, Nat.le_refl 1, by decide, [], rfl, by simp⟩, rfl⟩
    · have hhead : kept.head? = some false := by
        rw [List.head?_append] at hstart
        rw [hne] at hstart ⊢
        simpa using hstart
      have hlt : kept.length < regionNeeded kept := by
        rw [List.length_append, List.length_singleton] at hgrow
        by_cases hk : 4 ≤ kept.length
        · exact regionNeeded_append hk ▸ hgrow
        · have := le_regionNeeded kept
          omega
      obtain ⟨last, run, hkept, hafter⟩ := ih hhead hlt.le
      have hstep := hkept.step hlt b
      have htail : (stuff (kept ++ [b])).tail = (stuff kept).tail ++ stuffOut (last, run) b := by
        rw [hstep.sent]
        rfl
      have hnot : regionWhole kept = false := Bool.eq_false_iff.mpr fun hw => (regionWhole_iff.mp hw).not_lt hlt
      rw [hkept.within_eq, hnot] at hafter
      refine ⟨_, _, htail ▸ hstep, ?_⟩
      rw [htail, after_append, hafter]
      have hrun : run ≠ 6 := fun h6 => absurd hkept.run_le (by omega)
      by_cases hb : b = last
      · subst hb
        by_cases h5 : run = 5
        · subst h5
          have hflip : (!b) ≠ b := by cases b <;> decide
          simp [stuffOut, stuffStep, read, within]
        · simp [stuffOut, stuffStep, read, h5, hrun]
      · simp [stuffOut, stuffStep, read, hrun, hb]

/-! #### Places after the region -/

/-- Past the ACK slot. -/
def late : Reader → Bool
  | .region _ _ _ => false
  | .ackSlot _ => false
  | .ending _ => true
  | .failed _ => true
  | .done => true

theorem late_read {r : Reader} (h : ∀ kept last run, r ≠ .region kept last run) (b : Bool) : (r.read b).late = true := by
  cases r with
  | region kept last run => exact absurd rfl (h kept last run)
  | ackSlot right => cases right <;> rfl
  | ending left =>
    simp only [read]
    (repeat' split) <;> rfl
  | failed kind => rfl
  | done => rfl

theorem late_after {bits : List Bool} (more : List Bool) (h : (after bits).late = true) :
    (after (bits ++ more)).late = true := by
  induction more using List.reverseRecOn with
  | nil => simpa using h
  | append_singleton more b ih =>
    rw [← List.append_assoc, after_concat]
    exact late_read (fun kept last run heq => by rw [heq] at ih; cases ih) b

/-- Before a reader comes to the ACK slot it is in the region. -/
theorem region_of_prefix {bits sent : List Bool} {right : Bool} (h : after sent = .ackSlot right) (hp : bits <+: sent)
    (hne : bits ≠ sent) : ∃ kept last run, after bits = .region kept last run := by
  by_contra hno
  obtain ⟨more, rfl⟩ := hp
  cases more with
  | nil => exact hne (List.append_nil bits).symm
  | cons b more =>
    have hfirst : (after (bits ++ [b])).late = true := by
      rw [after_concat]
      exact late_read (fun kept last run heq => hno ⟨kept, last, run, heq⟩) b
    have hlate := late_after more hfirst
    rw [List.append_assoc, List.singleton_append, h] at hlate
    cases hlate

theorem within_ne_failed {kept : List Bool} {last : Bool} {run : Nat} {kind : ErrorKind} :
    within kept last run ≠ .failed kind := by
  unfold within
  split <;> simp

theorem after_concat_eq_failed {bits : List Bool} {b : Bool} {kind : ErrorKind} : after (bits ++ [b]) = .failed kind ↔
    (kind = .form ∧ ((∃ kept, after bits = .region kept b 6) ∨ (b = false ∧ ∃ left, after bits = .ending left))) ∨
      (kind = .check ∧ after bits = .ackSlot false) := by
  rw [after_concat]
  generalize after bits = r
  cases r with
  | region kept last run =>
    simp only [read]
    by_cases h6 : run = 6
    · by_cases hb : b = last
      · subst hb
        simp [h6, eq_comm]
      · simp [h6, hb, Ne.symm hb, within_ne_failed]
    · simp [h6, within_ne_failed]
  | ackSlot right => cases right <;> simp [read, eq_comm]
  | ending left =>
    cases b
    · simp [read, eq_comm]
    · simp only [read]
      (repeat' split) <;> simp_all
  | failed kind => simp [read]
  | done => simp [read]

theorem after_eq_failed {bits : List Bool} {kind : ErrorKind} (h : after bits = .failed kind) :
    ∃ before b, bits = before ++ [b] := by
  rcases List.eq_nil_or_concat' bits with rfl | ⟨before, b, rfl⟩
  · cases h
  · exact ⟨before, b, rfl⟩

/-- So many recessive bits of the delimiter and the end field have been read (R81). -/
theorem after_eq_ending {bits : List Bool} {left : Nat} : after bits = .ending left ↔
    ∃ sent slot n, bits = sent ++ slot :: List.replicate n true ∧ n ≤ 8 ∧ left = 9 - n ∧ after sent = .ackSlot true := by
  induction bits using List.reverseRecOn generalizing left with
  | nil =>
    constructor
    · intro h
      cases h
    · rintro ⟨sent, slot, n, h, _⟩
      simp at h
  | append_singleton bits b ih =>
    rw [after_concat]
    constructor
    · intro h
      cases hr : after bits with
      | region kept last run =>
        rw [hr] at h
        simp only [read, within] at h
        (repeat' split at h) <;> cases h
      | ackSlot right =>
        rw [hr] at h
        cases right with
        | false => cases h
        | true => exact ⟨bits, b, 0, rfl, by decide, (Reader.ending.inj h).symm, hr⟩
      | ending before =>
        obtain ⟨sent, slot, n, rfl, hn, hleft, hsent⟩ := ih.mp hr
        rw [hr] at h
        cases b with
        | false => cases h
        | true =>
          simp only [read, Bool.not_true, Bool.false_eq_true, if_false] at h
          split at h
          · cases h
          · next hb =>
            refine ⟨sent, slot, n + 1, ?_, by omega, ?_, hsent⟩
            · rw [List.replicate_succ', List.append_assoc, List.cons_append]
            · have := Reader.ending.inj h
              omega
      | failed kind => rw [hr] at h; cases h
      | done => rw [hr] at h; cases h
    · rintro ⟨sent, slot, n, hbits, hn, rfl, hsent⟩
      cases n with
      | zero =>
        obtain ⟨rfl, hslot⟩ := List.append_inj' hbits rfl
        rw [hsent]
        rfl
      | succ n =>
        rw [List.replicate_succ', ← List.cons_append, ← List.append_assoc] at hbits
        obtain ⟨rfl, hb⟩ := List.append_inj' hbits rfl
        obtain rfl := (List.cons.inj hb).1
        rw [ih.mpr ⟨sent, slot, n, rfl, by omega, rfl, hsent⟩]
        have hleft : ¬ 9 - n ≤ 1 := by omega
        simp only [read, Bool.not_true, Bool.false_eq_true, if_false, if_neg hleft]
        congr 1

end Reader

/-! #### Whole regions (R76) -/

theorem FrameType.ofBits_iff {a b c : Bool} {type : FrameType} : [a, b, c] = bitsOf 3 type.code ↔
    type = FrameType.ofBits a b c := by
  cases type <;> cases a <;> cases b <;> cases c <;> decide

/-- A whole region by the reader's length, or by the type's (R76). -/
theorem wholeRegion_iff {fields crcBits sent : List Bool} : WholeRegion fields crcBits sent ↔
    crcBits.length = 8 ∧ regionWhole (false :: fields ++ crcBits) = true ∧
      sent = (stuff (false :: fields ++ crcBits)).tail := by
  unfold WholeRegion
  rw [regionWhole_iff]
  have hkey : crcBits.length = 8 → ((∃ type : FrameType, fields.take 3 = bitsOf 3 type.code ∧
      fields.length = 16 + 8 * type.payloadLength) ↔
        (false :: fields ++ crcBits).length = regionNeeded (false :: fields ++ crcBits)) := by
    intro h8
    have hlen : (false :: fields ++ crcBits).length = fields.length + 9 := by simp [h8]
    rw [hlen]
    by_cases h3 : 3 ≤ fields.length
    · obtain _ | ⟨a, _ | ⟨b, _ | ⟨c, rest⟩⟩⟩ := fields
      case cons.cons.cons =>
        have hneeded : regionNeeded (false :: (a :: b :: c :: rest) ++ crcBits) =
            25 + 8 * (FrameType.ofBits a b c).payloadLength := rfl
        rw [hneeded]
        constructor
        · rintro ⟨type, htake, hfields⟩
          obtain rfl := FrameType.ofBits_iff.mp htake
          omega
        · intro h
          exact ⟨_, FrameType.ofBits_iff.mpr rfl, by omega⟩
      all_goals simp at h3
    · have := le_regionNeeded (false :: fields ++ crcBits)
      constructor
      · rintro ⟨type, _, hfields⟩
        omega
      · intro h
        omega
  constructor
  · rintro ⟨htype, h8, hsent⟩
    exact ⟨h8, (hkey h8).mp htype, hsent⟩
  · rintro ⟨h8, hwhole, hsent⟩
    exact ⟨(hkey h8).mpr hwhole, h8, hsent⟩

theorem crcRight_of {fields crcBits : List Bool} (h : crcBits.length = 8) : crcRight (false :: fields ++ crcBits) =
    decide (crcBits = bitsOf 8 (crc fields).toNat) := by
  have hlen : (false :: fields ++ crcBits).length - 8 = (false :: fields).length := by simp [h]
  rw [crcRight, hlen, List.drop_left, List.take_left]
  rfl

/-- What is whole is a region with its CRC bits. -/
theorem wholeRegion_of_whole {kept : List Bool} (hstart : kept.head? = some false) (hwhole : regionWhole kept = true) :
    ∃ fields crcBits, kept = false :: fields ++ crcBits ∧ WholeRegion fields crcBits (stuff kept).tail := by
  have hlen := regionWhole_iff.mp hwhole
  have h25 := le_regionNeeded kept
  obtain _ | ⟨start, rest⟩ := kept
  · cases hstart
  · obtain rfl := Option.some.inj hstart
    have hsplit : false :: rest = false :: rest.take (rest.length - 8) ++ rest.drop (rest.length - 8) := by
      rw [List.cons_append, List.take_append_drop]
    have h8 : (rest.drop (rest.length - 8)).length = 8 := by
      rw [List.length_cons] at hlen
      rw [List.length_drop]
      omega
    exact ⟨_, _, hsplit, wholeRegion_iff.mpr ⟨h8, hsplit ▸ hwhole, by rw [← hsplit]⟩⟩

namespace Reader

/-- The ACK slot comes after a whole stuffed region (R81). -/
theorem after_eq_ackSlot {bits : List Bool} {right : Bool} : after bits = .ackSlot right ↔
    ∃ fields crcBits, WholeRegion fields crcBits bits ∧ right = decide (crcBits = bitsOf 8 (crc fields).toNat) := by
  constructor
  · intro h
    have hstands := stands_after bits
    rw [h] at hstands
    obtain ⟨kept, last, run, hkept, hwhole, rfl⟩ := hstands
    obtain ⟨fields, crcBits, rfl, hregion⟩ := wholeRegion_of_whole hkept.starts hwhole
    rw [hkept.sent] at hregion
    exact ⟨fields, crcBits, hregion, crcRight_of (wholeRegion_iff.mp hregion).1⟩
  · rintro ⟨fields, crcBits, hregion, rfl⟩
    obtain ⟨h8, hwhole, rfl⟩ := wholeRegion_iff.mp hregion
    obtain ⟨last, run, hkept, hafter⟩ := after_stuff _ rfl (regionWhole_iff.mp hwhole).le
    rw [hafter, hkept.within_eq, if_pos hwhole, crcRight_of h8]

/-- A run of six stands in the region, the inserted bit still to come (R77). -/
theorem after_eq_region_six {bits : List Bool} {x : Bool} : (∃ kept, after bits = .region kept x 6) ↔
    ∃ fields crcBits sent, WholeRegion fields crcBits sent ∧ bits <+: sent ∧ List.replicate 6 x <:+ false :: bits := by
  constructor
  · rintro ⟨kept, h⟩
    have hstands := stands_after bits
    rw [h] at hstands
    rcases hstands with ⟨hkept, _⟩ | ⟨_, ⟨pre, hends, _⟩, hkept⟩
    · exact absurd hkept.run_le (by decide)
    · have hwhole : regionWhole (kept ++ List.replicate (regionNeeded kept - kept.length) false) = true := by
        rw [regionWhole_iff, regionNeeded_append_dominant, List.length_append, List.length_replicate]
        have := hkept.growing
        omega
      have hstart : (kept ++ List.replicate (regionNeeded kept - kept.length) false).head? = some false := by
        rw [List.head?_append, hkept.starts]
        rfl
      obtain ⟨fields, crcBits, _, hregion⟩ := wholeRegion_of_whole hstart hwhole
      refine ⟨fields, crcBits, _, hregion, ?_, pre, hends.symm⟩
      obtain ⟨more, hmore⟩ := stuffFrom_append kept (List.replicate (regionNeeded kept - kept.length) false) true 0
      have hsent : stuff (kept ++ List.replicate (regionNeeded kept - kept.length) false) =
          false :: (bits ++ [!x] ++ more) := by
        rw [stuff, ← hmore]
        exact congrArg (· ++ more) hkept.sent
      rw [hsent, List.tail_cons, List.append_assoc]
      exact List.prefix_append _ _
  · rintro ⟨fields, crcBits, sent, hregion, hp, hs⟩
    have hsent := after_eq_ackSlot.mpr ⟨fields, crcBits, hregion, rfl⟩
    have hshort : ∀ kept last run, Kept bits kept last run → False := fun kept last run hkept => by
      have := (hkept.ends.suffix hkept.run_pos (by decide) hs).2.trans hkept.run_le
      omega
    have hstands := stands_after bits
    have hne : bits ≠ sent := fun heq => by
      rw [heq, hsent] at hstands
      obtain ⟨kept, last, run, hkept, _⟩ := hstands
      exact hshort kept last run (heq ▸ hkept)
    obtain ⟨kept, last, run, hregion⟩ := region_of_prefix hsent hp hne
    rw [hregion] at hstands
    rcases hstands with ⟨hkept, _⟩ | ⟨h6, hends, _⟩
    · exact (hshort kept last run hkept).elim
    · obtain ⟨rfl, _⟩ := hends.suffix (by decide) (by decide) hs
      exact ⟨kept, h6 ▸ hregion⟩

end Reader

end Sys2Proof.Machine

/-! ### Frames lost on the wire (R80, R83 to R93) -/

namespace Sys2Proof.Machine

open Host

theorem Rbc.readBits_slots (bits : List Bool) (l : List Slot) (b : Rbc) :
    ({ b with slots := l } : Rbc).readBits bits = { b.readBits bits with slots := l } := by
  induction bits generalizing b with
  | nil => rfl
  | cons bit rest ih =>
    have hone : ({ b with slots := l } : Rbc).readBit bit = { b.readBit bit with slots := l } := by cases bit <;> rfl
    exact (congrArg (Rbc.readBits rest) hone).trans (ih (b.readBit bit))

theorem Rbc.sendingSlot_mem {b : Rbc} {x : Slot} (h : b.sendingSlot = some x) : x ∈ b.slots ∧ x.sending = true :=
  ⟨List.mem_of_find?_eq_some h, List.find?_some (p := fun s : Slot => s.sending) h⟩

/-- What the attempt's end leaves: no slot in transmission, and the frame loaded again unless its abort was held (R91,
R93). -/
theorem State.endAttempt_spec {s : State} {x : Slot} (h : s.rbc.sendingSlot = some x) (unacked : Nat) :
    ∃ slots, (s.endAttempt unacked).rbc = { s.rbc with slots := slots } ∧ (∀ y ∈ slots, y.sending = false) ∧
      (x.abort = false → { x with sending := false, unacked := unacked } ∈ slots) ∧
      (∀ y ∈ slots, ∃ z ∈ s.rbc.slots, z.marker = y.marker) ∧
      (s.endAttempt unacked).carry.offer = s.carry.offer ∧ (s.endAttempt unacked).carry.accept = s.carry.accept := by
  obtain ⟨hmem, hsending⟩ := Rbc.sendingSlot_mem h
  simp only [State.endAttempt, h]
  split
  · next ha =>
    refine ⟨_, rfl, fun y hy => by simpa using (List.mem_filter.mp hy).2, fun hn => absurd ha (by simp [hn]),
      fun y hy => ⟨y, (List.mem_filter.mp hy).1, rfl⟩, rfl, rfl⟩
  · refine ⟨_, rfl, fun y hy => ?_, fun _ => List.mem_map.mpr ⟨x, hmem, if_pos hsending⟩, fun y hy => ?_, rfl, rfl⟩
    · obtain ⟨z, _, rfl⟩ := List.mem_map.mp hy
      split
      · rfl
      · next hz => simpa using hz
    · obtain ⟨z, hz, rfl⟩ := List.mem_map.mp hy
      exact ⟨z, hz, by split <;> rfl⟩

/-! #### The slots at the end of a step -/

theorem State.loadOne_slots_prefix (s : State) : s.rbc.slots <+: s.loadOne.rbc.slots := by
  unfold State.loadOne
  split
  · split
    · exact List.prefix_refl _
    · exact List.prefix_append _ _
  · exact List.prefix_refl _

theorem State.loadSlots_slots_prefix (s : State) : s.rbc.slots <+: s.loadSlots.rbc.slots :=
  (s.loadOne_slots_prefix.trans (State.loadOne_slots_prefix _)).trans (State.loadOne_slots_prefix _)

/-- The loading of frames keeps the slots loaded before it (R91). -/
theorem State.settleFrames_slots_prefix (before s : State) : s.rbc.slots <+: (State.settleFrames before s).rbc.slots := by
  have h := State.loadSlots_slots_prefix (before.noteReported s).oweState
  rwa [State.oweState_slots, State.noteReported_rbc] at h

/-- A part of the controller that is neither the slots nor the markers owed stays through the end of a step. -/
theorem State.Settled.rbc_field {α : Type} {made left : State} (h : State.Settled made left) (g : Rbc → α)
    (hg : ∀ b slots owed, g { b with slots := slots, owed := owed } = g b) : g left.rbc = g made.rbc :=
  (hg left.rbc made.rbc.slots made.rbc.owed).symm.trans (congrArg g h.wire)

/-! #### Errors of a receiver -/

theorem Rbc.signalError_eq (b : Rbc) (echo : BitVec 8) (a : Rbc) :
    a.signalError (decide (b.confinement = .active)) echo =
      a.readBits (if b.confinement = .active then bitsOf 8 echo.toNat else []) := by
  unfold Rbc.signalError
  by_cases hc : b.confinement = .active
  · rw [if_pos (decide_eq_true hc), if_pos hc]
  · rw [if_neg (mt of_decide_eq_true hc), if_neg hc]
    rfl

/-- The abort pattern read back as sent (R75, R84). -/
theorem Rbc.readBits_pattern (b : Rbc) : (b.readBits (bitsOf 8 (0 : BitVec 8).toNat)).dominantRun = b.dominantRun + 8 ∧
    (b.readBits (bitsOf 8 (0 : BitVec 8).toNat)).recessiveRun = 0 := ⟨rfl, rfl⟩

/-- Settles O34: the reader's states by the bits they stand for, then the two commands. -/
theorem lostFramesComplete : Obligations.LostFramesComplete := by
  unfold Obligations.LostFramesComplete
  refine ⟨fun b read => ?_, fun kind read echo s hrec hstuck hkind hfinds => ?_, fun read s x hx hlost hrun => ?_⟩
  · intro bits right
    have hfinds : ∀ kind, b.findsError kind read = true ↔ Reader.after bits = .failed kind := fun kind => decide_eq_true_iff
    have hnever : ∀ kind, kind ≠ .form → kind ≠ .check → b.findsError kind read = false := fun kind hf hc => by
      rw [Bool.eq_false_iff]
      intro h
      have hafter := (hfinds kind).mp h
      obtain ⟨before, bit, hbits⟩ := Reader.after_eq_failed hafter
      rw [hbits, Reader.after_concat_eq_failed] at hafter
      exact hafter.elim (fun h => hf h.1) fun h => hc h.1
    refine ⟨?_, ?_, ?_, hnever .bit (by decide) (by decide), hnever .ack (by decide) (by decide)⟩
    · simp only [Rbc.drivesAck, Bool.and_eq_true, Bool.not_eq_true', and_assoc]
      refine and_congr_right fun _ => and_congr_right fun _ => and_congr_right fun _ => ?_
      rw [decide_eq_true_iff, Rbc.reader, Reader.after_eq_ackSlot]
      constructor
      · rintro ⟨fields, crcBits, hregion, hright⟩
        obtain rfl := of_decide_eq_true hright.symm
        exact ⟨fields, hregion⟩
      · rintro ⟨fields, hregion⟩
        exact ⟨fields, _, hregion, (decide_eq_true rfl).symm⟩
    · rw [hfinds]
      constructor
      · intro h
        obtain ⟨sent, slot, hbits⟩ := Reader.after_eq_failed h
        rw [hbits, Reader.after_concat_eq_failed] at h
        obtain ⟨fields, given, hregion, hright⟩ := Reader.after_eq_ackSlot.mp (h.resolve_left (by simp)).2
        exact ⟨fields, given, sent, slot, hregion, of_decide_eq_false hright.symm, hbits⟩
      · rintro ⟨fields, given, sent, slot, hregion, hwrong, hbits⟩
        rw [hbits, Reader.after_concat_eq_failed]
        exact .inr ⟨rfl, Reader.after_eq_ackSlot.mpr ⟨fields, given, hregion, (decide_eq_false hwrong).symm⟩⟩
    · rw [hfinds]
      constructor
      · intro h
        obtain ⟨before, x, hbits⟩ := Reader.after_eq_failed h
        rw [hbits, Reader.after_concat_eq_failed] at h
        obtain ⟨_, hsix | ⟨rfl, left, hending⟩⟩ := h.resolve_right (by simp)
        · obtain ⟨fields, given, sent, hregion, hp, hs⟩ := Reader.after_eq_region_six.mp hsix
          exact .inl ⟨fields, given, sent, before, x, hregion, hp, hs, hbits⟩
        · obtain ⟨sent, slot, n, rfl, hn, _, hack⟩ := Reader.after_eq_ending.mp hending
          obtain ⟨fields, given, hregion, hright⟩ := Reader.after_eq_ackSlot.mp hack
          obtain rfl := of_decide_eq_true hright.symm
          exact .inr ⟨fields, sent, slot, n, hregion, hn, hbits⟩
      · rintro (⟨fields, given, sent, before, x, hregion, hp, hs, hbits⟩ | ⟨fields, sent, slot, n, hregion, hn, hbits⟩)
        · rw [hbits, Reader.after_concat_eq_failed]
          exact .inl ⟨rfl, .inl (Reader.after_eq_region_six.mpr ⟨fields, given, sent, hregion, hp, hs⟩)⟩
        · rw [hbits, Reader.after_concat_eq_failed]
          refine .inl ⟨rfl, .inr ⟨rfl, 9 - n, Reader.after_eq_ending.mpr ⟨sent, slot, n, rfl, hn, rfl, ?_⟩⟩⟩
          exact Reader.after_eq_ackSlot.mpr ⟨fields, _, hregion, (decide_eq_true rfl).symm⟩
  · intro w
    have hby : kind.byReceiver = true := by
      rcases hkind with rfl | rfl <;> rfl
    have hexec : exec (.receiveError kind read echo) s = .next { s with rbc := { w.raiseRx with receiving := false } } := by
      refine (if_pos (by simp [hrec, hstuck, hby, hfinds])).trans ?_
      rw [Rbc.signalError_eq]
    obtain ⟨r, d, v, hw⟩ : ∃ r d v, w = { s.rbc with recessiveRun := r, dominantRun := d, recovery := v } := by
      obtain ⟨r, d, v, h1⟩ := Rbc.readBits_frame read s.rbc
      obtain ⟨r', d', v', h2⟩ := Rbc.readBits_frame (if s.rbc.confinement = .active then bitsOf 8 echo.toNat else [])
        (s.rbc.readBits read)
      exact ⟨r', d', v', h2.trans (by rw [h1])⟩
    have hrx : w.raiseRx = { w with
        rxErrors := if s.rbc.busOff then s.rbc.rxErrors else min 255 (s.rbc.rxErrors + 1) } := by
      have hbusOff : w.busOff = s.rbc.busOff := Rbc.busOff_congr (by rw [hw])
      rw [Rbc.raiseRx, hbusOff]
      split <;> rw [hw]
    refine ⟨_, hexec, rfl, by rw [hrx], by rw [hrx, hw], by rw [hrx, hw], by rw [hrx, hw], by rw [hrx], by rw [hrx],
      by rw [hrx], fun hactive hecho => ?_, rfl⟩
    have hpattern : w = (s.rbc.readBits read).readBits (bitsOf 8 (0 : BitVec 8).toNat) := by
      subst hecho
      exact congrArg (Rbc.readBits · (s.rbc.readBits read)) (if_pos hactive)
    simp only [hrx]
    rw [hpattern]
    exact Rbc.readBits_pattern _
  · intro w
    obtain ⟨slots, hrbc, hnone, hkept, _, hoffer, haccept⟩ := State.endAttempt_spec hx x.unacked
    have hguard : (x.frame.lostBy read && !s.rbc.startFailed) = true := by
      simp [hlost, Rbc.startFailed, hrun]
    obtain ⟨r, d, v, hw⟩ := Rbc.readBits_frame read s.rbc
    have htx : w.txErrors = s.rbc.txErrors := (congrArg Rbc.txErrors hw :)
    have hrx : w.rxErrors = s.rbc.rxErrors := (congrArg Rbc.rxErrors hw :)
    have hpassive : w.passive = s.rbc.passive := (congrArg Rbc.passive hw :)
    have hread : ((s.endAttempt x.unacked).rbc.readBits read).suspendIfPassive =
        { w with slots := slots, suspend := s.rbc.passive } := by
      rw [hrbc, Rbc.readBits_slots]
      exact congrArg (fun p => { w with slots := slots, suspend := p }) hpassive
    have hexec : exec (.arbitrationLost read) s = .next (s.settleFrames { s.endAttempt x.unacked with
        rbc := { w with slots := slots, suspend := s.rbc.passive, receiving := true, frameBits := read } }) := by
      change execArbitrationLost s read = _
      simp only [execArbitrationLost, hx, if_pos hguard, hread]
    have hframes := State.settleFrames_framesOnly s { s.endAttempt x.unacked with
      rbc := { w with slots := slots, suspend := s.rbc.passive, receiving := true, frameBits := read } }
    have hslots := State.settleFrames_slots_prefix s { s.endAttempt x.unacked with
      rbc := { w with slots := slots, suspend := s.rbc.passive, receiving := true, frameBits := read } }
    have hclosed := State.settleFrames_closed s { s.endAttempt x.unacked with
      rbc := { w with slots := slots, suspend := s.rbc.passive, receiving := true, frameBits := read } }
    generalize s.settleFrames _ = t at *
    have hfield : ∀ {α : Type} (g : Rbc → α), (∀ b slots owed, g { b with slots := slots, owed := owed } = g b) →
        g t.rbc = g { w with slots := slots, suspend := s.rbc.passive, receiving := true, frameBits := read } :=
      fun g hg => hframes.settled.rbc_field g hg
    refine ⟨t, hexec, hfield Rbc.receiving fun _ _ _ => rfl, hfield Rbc.frameBits fun _ _ _ => rfl, ?_, ?_,
      hfield Rbc.dominantRun fun _ _ _ => rfl, hfield Rbc.recessiveRun fun _ _ _ => rfl,
      hclosed.noSending ((sendingSlot_none_iff _).mpr hnone), hfield Rbc.suspend fun _ _ _ => rfl,
      fun ha => hslots.subset (hkept ha), hframes.sameCall.trans (by simp), hframes.sameView.trans (by simp),
      hframes.sameQueue.trans (by simp), hframes.sameClock.trans (by simp), hframes.settled.zone.trans (by simp),
      hframes.settled.loader.trans (by simp), hframes.settled.time.trans (by simp), hframes.settled.tone.trans (by simp),
      hframes.sameOffer.trans hoffer, hframes.sameAccept.trans haccept⟩
    · exact (hfield Rbc.txErrors fun _ _ _ => rfl).trans htx
    · exact (hfield Rbc.rxErrors fun _ _ _ => rfl).trans hrx

end Sys2Proof.Machine

/-! ### Transmit errors, BUS_OFF and STUCK (R82 to R90, R116) -/

namespace Sys2Proof.Machine

open Host

/-- Every slot and every marker owed was there, but a CLAIM owed. -/
structure State.FramesFrom (s t : State) : Prop where
  slots : ∀ y ∈ t.rbc.slots, ∃ x ∈ s.rbc.slots, x.marker = y.marker ∧ x.sending = y.sending
  owed : ∀ m ∈ t.rbc.owed, m ∈ s.rbc.owed ∨ ∃ k key barge, m = .claim k key barge

namespace State.FramesFrom

variable {s t u : State}

theorem of_rbc (h : t.rbc = s.rbc) : s.FramesFrom t where
  slots y hy := ⟨y, h ▸ hy, rfl, rfl⟩
  owed _ hm := .inl (h ▸ hm)

theorem trans (h : s.FramesFrom t) (g : t.FramesFrom u) : s.FramesFrom u where
  slots y hy := by
    obtain ⟨x, hx, hm, hs⟩ := g.slots y hy
    obtain ⟨z, hz, hzm, hzs⟩ := h.slots x hx
    exact ⟨z, hz, hzm.trans hm, hzs.trans hs⟩
  owed m hm := by
    rcases g.owed m hm with h1 | h1
    · exact h.owed m h1
    · exact .inr h1

theorem after (g : t.FramesFrom u) (h : t.rbc = s.rbc) : s.FramesFrom u := (of_rbc h).trans g

theorem next (g : s.FramesFrom t) (h : u.rbc = t.rbc) : s.FramesFrom u := g.trans (of_rbc h)

theorem noSending (h : s.FramesFrom t) (hs : s.rbc.sendingSlot = none) : t.rbc.sendingSlot = none := by
  rw [sendingSlot_none_iff] at hs ⊢
  intro y hy
  obtain ⟨x, hx, _, hxs⟩ := h.slots y hy
  exact hxs.symm.trans (hs x hx)

/-- What was not owed, and is no CLAIM, is not owed. -/
theorem owes (h : s.FramesFrom t) {m : Marker} (hm : ∀ k key barge, m ≠ .claim k key barge) (ho : t.rbc.owes m = true) :
    s.rbc.owes m = true := by
  rw [owes_iff] at ho ⊢
  rcases ho with ho | ⟨y, hy, rfl⟩
  · refine .inl ((h.owed m ho).resolve_right ?_)
    rintro ⟨k, key, barge, heq⟩
    exact hm k key barge heq
  · obtain ⟨x, hx, hxm, _⟩ := h.slots y hy
    exact .inr ⟨x, hx, hxm⟩

end State.FramesFrom

section
variable (s : State)

theorem State.cancel_framesFrom (p : Marker → Bool) : s.FramesFrom (s.cancel p) where
  slots y hy := by
    simp only [State.cancel, State.abortMatching, Rbc.withdraw, List.mem_map, List.mem_filter] at hy
    obtain ⟨x, ⟨hx, _⟩, rfl⟩ := hy
    exact ⟨x, hx, by split <;> rfl, by split <;> rfl⟩
  owed m hm := .inl (List.mem_filter.mp hm).1

theorem State.placeOn_framesFrom (k : LineId) (tier : Tier) (r : Record) : s.FramesFrom (s.placeOn k tier r) := by
  have hrbc : (s.placeOn k tier r).rbc = if s.solo then s.rbc
      else s.rbc.owe (.claim k (r.key s.time s.address) (decide (tier = .office))) := rfl
  cases hs : s.solo with
  | true => exact .of_rbc (by simp [hrbc, hs])
  | false =>
    refine ⟨fun y hy => ⟨y, by simpa [hrbc, hs, Rbc.owe] using hy, rfl, rfl⟩, fun m hm => ?_⟩
    simp only [hrbc, hs, Bool.false_eq_true, if_false, Rbc.owe, List.mem_append, List.mem_singleton] at hm
    exact hm.imp_right fun h => ⟨_, _, _, h⟩

theorem State.rechoose_framesFrom : s.FramesFrom s.rechoose := by
  unfold State.rechoose
  split
  · exact .of_rbc (by simp)
  · split
    · split
      · next r _ _ _ k tier _ => exact .next (s.placeOn_framesFrom k tier r) (by simp)
      · exact .of_rbc (by simp)
    · exact .of_rbc (by simp)

theorem State.dropClaim_framesFrom (k : LineId) : s.FramesFrom (s.dropClaim k) :=
  State.FramesFrom.trans (t := State.clearOwnFields k { s with call := { s.call with guardDone := false } })
    (.after (State.cancel_framesFrom _ _) rfl) (State.cancel_framesFrom _ _)

theorem State.abandonInClaim_framesFrom (k : LineId) : s.FramesFrom (s.abandonInClaim k) :=
  (s.dropClaim_framesFrom k).trans (State.rechoose_framesFrom _)

theorem State.enterSolo_framesFrom : s.FramesFrom s.enterSolo := by
  refine .after (t := { s with zone := { s.zone with busTimer := true } }) ?_ rfl
  unfold State.enterSolo State.claimIntoSolo
  split
  · split
    · split
      · next k _ _ _ _ =>
        have hcancelled := State.cancel_framesFrom { s with
          zone := { s.zone with busTimer := true }
          view := s.view.update k fun e => { e with ownGuardDone := true } } (Marker.claims k)
        exact .next (.after hcancelled rfl) (by simp)
      · exact State.abandonInClaim_framesFrom _ _
    · split
      · exact .of_rbc (by dsimp only; split <;> simp)
      · exact .of_rbc rfl
  · exact .of_rbc rfl

theorem State.dropReleases_framesFrom : s.FramesFrom s.dropReleases where
  slots y hy := ⟨y, (List.mem_filter.mp hy).1, rfl, rfl⟩
  owed _ hm := .inl (List.mem_filter.mp hm).1

theorem State.dropReleases_owes {m : Marker} (hm : m.isRelease = true) : s.dropReleases.rbc.owes m = false := by
  rw [Bool.eq_false_iff, ne_eq, owes_iff]
  simp only [State.dropReleases, List.mem_filter]
  rintro (⟨_, h⟩ | ⟨x, ⟨_, h⟩, rfl⟩)
  · simp [hm] at h
  · simp [hm] at h

theorem State.KeepsBus.recovery {s t : State} (h : s.KeepsBus t) : t.rbc.recovery = s.rbc.recovery :=
  (congrArg Rbc.recovery h.wire :)

/-- Once every RELEASE is dropped, none is owed at the end of the step (R94). -/
theorem State.dropReleases_gone {d u t : State} (h : d.dropReleases.FramesFrom u) (g : State.Closed u t) :
    (∀ m ∈ t.rbc.owed, m.isRelease = false) ∧ ∀ y ∈ t.rbc.slots, y.marker.isRelease = false := by
  have hgone : ∀ m, t.rbc.owes m = true → m.isRelease = false := fun m ho => by
    rw [Bool.eq_false_iff]
    intro hm
    have hnew : m.addedAtEnd = false := by cases m <;> first | rfl | cases hm
    have hclaim : ∀ k key barge, m ≠ .claim k key barge := fun k key barge heq => by rw [heq] at hm; cases hm
    have hdropped := h.owes hclaim (g.owesOnly m hnew ho)
    exact absurd hdropped (by simp [State.dropReleases_owes d hm])
  exact ⟨fun m hm => hgone m ((owes_iff _ _).mpr (.inl hm)), fun y hy => hgone _ ((owes_iff _ _).mpr (.inr ⟨y, hy, rfl⟩))⟩

theorem State.frameEnded_slots (x : Slot) : (s.frameEnded x).rbc.slots = s.rbc.slots := by
  unfold State.frameEnded State.claimEnded State.offerEnded State.carryEnded
  (repeat' split) <;> rfl

theorem State.afterError_noSending (kind : ErrorKind) {x : Slot} (hx : s.rbc.sendingSlot = some x) :
    (s.afterError kind x).rbc.sendingSlot = none := by
  have hended : ∀ unacked, (s.endAttempt unacked).rbc.sendingSlot = none := fun unacked => by
    obtain ⟨slots, hrbc, hnone, _⟩ := State.endAttempt_spec hx unacked
    rw [hrbc]
    exact (sendingSlot_none_iff _).mpr hnone
  unfold State.afterError
  split
  · split
    · rw [State.concludeSending, Rbc.sendingSlot, State.frameEnded_slots]
      exact Rbc.dropSending_sendingSlot s.rbc
    · exact hended _
  · exact hended _

theorem State.afterError_tone (kind : ErrorKind) (x : Slot) : (s.afterError kind x).tone = s.tone := by
  unfold State.afterError State.concludeSending State.frameEnded State.claimEnded State.offerEnded State.carryEnded
  (repeat' split) <;> first | rfl | simp

theorem State.afterError_zone (kind : ErrorKind) (x : Slot) : (s.afterError kind x).zone = s.zone := by
  unfold State.afterError State.concludeSending State.frameEnded State.claimEnded State.offerEnded State.carryEnded
  (repeat' split) <;> first | rfl | simp

theorem State.enterSolo_tone : s.enterSolo.tone = s.tone := by
  unfold State.enterSolo State.claimIntoSolo
  (repeat' split) <;> first | rfl | simp

theorem State.enterSolo_zone : s.enterSolo.zone = { s.zone with busTimer := true } := by
  unfold State.enterSolo State.claimIntoSolo
  (repeat' split) <;> first | rfl | simp

end

/-! #### The slots at the end of a step that keeps the station eligible -/

theorem State.makeOffer_slots (s : State) : s.makeOffer.rbc.slots = s.rbc.slots := by
  unfold State.makeOffer
  (repeat' split) <;> rfl

theorem State.choose_slots (s : State) : s.choose.rbc.slots = s.rbc.slots := by
  unfold State.choose
  split
  · split
    · rfl
    · split
      · simp only [State.startCall, State.trySeize_rbc, State.requestClock_rbc, State.placeOn]
        split <;> rfl
      · rfl
  · rfl

theorem State.chooseAndOffer_slots (s : State) : s.chooseAndOffer.rbc.slots = s.rbc.slots := by
  unfold State.chooseAndOffer
  dsimp only
  (repeat' split) <;> simp [State.makeOffer_slots, State.choose_slots]

/-- A station that stays eligible keeps every slot loaded (R91, R155). -/
theorem State.settle_slots_prefix {before s : State} (h : before.eligible = true → s.eligible = true) :
    s.rbc.slots <+: (before.settle s).rbc.slots := by
  have hmade : (before.noteReported (before.checkAccept s).chooseAndOffer).oweState.rbc.slots = s.rbc.slots := by
    rw [State.oweState_slots, State.noteReported_rbc, State.chooseAndOffer_slots, State.checkAccept_of_eligible h]
  have hload := State.loadSlots_slots_prefix (before.noteReported (before.checkAccept s).chooseAndOffer).oweState
  rw [hmade] at hload
  exact hload

/-! #### The controller after a failed attempt -/

/-- The controller as an attempt that ends in an error leaves it, its slot apart (R75, R84 to R86). -/
def Rbc.failed (kind : ErrorKind) (read : List Bool) (echo : BitVec 8) (b : Rbc) : Rbc :=
  ((b.readFailedAttempt read echo).countFailedAttempt kind).suspendIfPassive

theorem Rbc.countFailedAttempt_eq (kind : ErrorKind) (b : Rbc) : b.countFailedAttempt kind = { b with
    txErrors := if kind = .ack ∧ 128 ≤ b.txErrors then b.txErrors else min 255 (b.txErrors + 8) } := by
  unfold Rbc.countFailedAttempt Rbc.raiseTxForAck Rbc.raiseTx
  by_cases hk : kind = .ack
  · by_cases h128 : 128 ≤ b.txErrors
    · simp [hk, h128, Nat.not_lt.mpr h128]
    · simp [hk, h128, Nat.lt_of_not_le h128]
  · simp [hk]

theorem Rbc.failed_eq (kind : ErrorKind) (read : List Bool) (echo : BitVec 8) (b : Rbc) : ∃ suspend,
    b.failed kind read echo = { b.readFailedAttempt read echo with
      txErrors := if kind = .ack ∧ 128 ≤ b.txErrors then b.txErrors else min 255 (b.txErrors + 8)
      suspend := suspend } := by
  obtain ⟨r, d, v, h⟩ := Rbc.readFailedAttempt_frame read echo b
  have htx : (b.readFailedAttempt read echo).txErrors = b.txErrors := by rw [h]
  refine ⟨((b.readFailedAttempt read echo).countFailedAttempt kind).passive, ?_⟩
  rw [Rbc.failed, Rbc.suspendIfPassive, Rbc.countFailedAttempt_eq, htx]

/-- The whole of a failed attempt's effect: no slot in transmission, and the controller but for what it has to send. -/
theorem State.afterError_spec {s : State} {x : Slot} (hx : s.rbc.sendingSlot = some x) (kind : ErrorKind)
    (read : List Bool) (echo : BitVec 8) :
    let left := State.afterError kind x { s with rbc := s.rbc.failed kind read echo }
    left.rbc.sendingSlot = none ∧ left.time = s.time ∧ left.loader = s.loader ∧ left.tone = s.tone ∧
      left.zone = s.zone ∧ { left.rbc with slots := s.rbc.slots, owed := s.rbc.owed } = s.rbc.failed kind read echo := by
  obtain ⟨suspend, hfailed⟩ := Rbc.failed_eq kind read echo s.rbc
  obtain ⟨r, d, v, hread⟩ := Rbc.readFailedAttempt_frame read echo s.rbc
  have hslots : (s.rbc.failed kind read echo).slots = s.rbc.slots ∧ (s.rbc.failed kind read echo).owed = s.rbc.owed := by
    rw [hfailed, hread]
    exact ⟨rfl, rfl⟩
  have hx' : (s.rbc.failed kind read echo).sendingSlot = some x := by
    rw [Rbc.sendingSlot, hslots.1]
    exact hx
  intro left
  have hkeeps := State.afterError_keeps { s with rbc := s.rbc.failed kind read echo } kind x
  have hwire := (State.afterError_keepsBus { s with rbc := s.rbc.failed kind read echo } kind x).wire
  refine ⟨State.afterError_noSending _ kind (by exact hx'), hkeeps.time, hkeeps.loader, State.afterError_tone _ kind x,
    State.afterError_zone _ kind x, ?_⟩
  rw [← hslots.1, ← hslots.2]
  exact hwire

/-- Entry to BUS_OFF (R88, R89, R94, R117). -/
theorem State.enterBusOff_entry {before s : State} (h : s.rbc.busOff = true) (hb : before.rbc.busOff = false)
    (hs : before.rbc.stuck = false) : before.enterBusOff s =
      (State.dropReleases { s with rbc := { s.rbc with recovery := 0 } }).enterSolo := by
  have hsolo : before.solo = false := by simp [State.solo, Rbc.solo, hb, hs]
  unfold State.enterBusOff
  rw [if_pos (by simp [h, hb]), if_neg (by simp [hsolo])]

/-- What entry to BUS_OFF leaves, whether it is entered or not. -/
theorem State.enterBusOff_spec {before : State} (hs : before.rbc.stuck = false) (s : State) :
    s.FramesFrom (before.enterBusOff s) ∧ (before.enterBusOff s).time = s.time ∧
      (before.enterBusOff s).loader = s.loader ∧ (before.enterBusOff s).tone = s.tone ∧
      ∃ n, { (before.enterBusOff s).rbc with slots := s.rbc.slots, owed := s.rbc.owed } = { s.rbc with recovery := n } := by
  by_cases hin : s.rbc.busOff = true ∧ before.rbc.busOff = false
  · rw [State.enterBusOff_entry hin.1 hin.2 hs]
    have hdropped := State.dropReleases_framesFrom { s with rbc := { s.rbc with recovery := 0 } }
    have hkeeps := State.enterSolo_keeps (State.dropReleases { s with rbc := { s.rbc with recovery := 0 } })
    have hwire := (State.enterSolo_keepsBus (State.dropReleases { s with rbc := { s.rbc with recovery := 0 } })).wire
    refine ⟨.trans ⟨hdropped.slots, hdropped.owed⟩ (State.enterSolo_framesFrom _), hkeeps.time, hkeeps.loader,
      State.enterSolo_tone _, 0, ?_⟩
    have hwide := congrArg (fun b : Rbc => { b with slots := s.rbc.slots, owed := s.rbc.owed }) hwire
    exact hwide
  · have hsame : before.enterBusOff s = s := by
      unfold State.enterBusOff
      exact if_neg (by simpa using hin)
    rw [hsame]
    exact ⟨.of_rbc rfl, rfl, rfl, rfl, s.rbc.recovery, rfl⟩

theorem State.losesAttempt_frameStart {s t : State} (hm : s.rbc.mayStart = true) (h : exec (.frameStart true) s = .next t)
    {x : Slot} (hx : t.rbc.sendingSlot = some x) : t.rbc.startFailed = true := by
  cases hl : Rbc.lowestSlot s.rbc.slots with
  | none =>
    have hexec : exec (.frameStart true) s = .next s := by
      change execFrameStart s true = _
      simp only [execFrameStart, if_pos hm, hl]
    obtain rfl := Outcome.next.inj (hexec.symm.trans h)
    simp [Rbc.mayStart, Rbc.listens, hx] at hm
  | some m =>
    have hexec : exec (.frameStart true) s = .next { s with rbc := (s.rbc.startSending m).readBit true } := by
      change execFrameStart s true = _
      simp only [execFrameStart, if_pos hm, hl]
    obtain rfl := Outcome.next.inj (hexec.symm.trans h)
    exact decide_eq_true (Nat.succ_ne_zero _)

/-- Settles O35. -/
theorem transmitErrorCompletes : Obligations.TransmitErrorCompletes := by
  unfold Obligations.TransmitErrorCompletes
  refine ⟨fun kind read echo s x hx hstuck hkind hloses => ?_, fun s t x kind read hm h hx => ?_⟩
  · intro w
    have hby : kind.byTransmitter = true := by
      rcases hkind with rfl | rfl | rfl <;> rfl
    have hexec : exec (.transmitError kind read echo) s = .next (s.settle (s.enterBusOff
        (State.afterError kind x { s with rbc := s.rbc.failed kind read echo }))) := by
      have hguard : (kind.byTransmitter && !s.rbc.stuck && s.rbc.losesAttempt kind x.frame read) = true := by
        simp [hby, hstuck, hloses]
      change execTransmitError kind s read echo = _
      simp only [execTransmitError, hx, if_pos hguard]
      rfl
    obtain ⟨hnone, htime, hloader, htone, hzone, hwire⟩ := State.afterError_spec hx kind read echo
    obtain ⟨suspend, hfailed⟩ := Rbc.failed_eq kind read echo s.rbc
    obtain ⟨r, d, v, hread⟩ := Rbc.readFailedAttempt_frame read echo s.rbc
    have hw : s.rbc.readFailedAttempt read echo = w := Rbc.signalError_eq s.rbc echo _
    generalize hv : State.afterError kind x { s with rbc := s.rbc.failed kind read echo } = v at *
    obtain ⟨hframes, hutime, huloader, hutone, n, huwire⟩ := State.enterBusOff_spec hstuck v
    have hsettled := State.settle_settled s (s.enterBusOff v)
    have hclosed := State.settle_closed s (s.enterBusOff v)
    have hfield : ∀ {α : Type} (g : Rbc → α),
        (∀ b slots owed recovery, g { b with slots := slots, owed := owed, recovery := recovery } = g b) →
        g (s.settle (s.enterBusOff v)).rbc = g (s.rbc.failed kind read echo) := fun g hg => by
      calc g (s.settle (s.enterBusOff v)).rbc
          = g (s.enterBusOff v).rbc := hsettled.rbc_field g fun b l o => hg b l o b.recovery
        _ = g { v.rbc with recovery := n } := by rw [← huwire]; exact (hg _ _ _ _).symm
        _ = g v.rbc := hg v.rbc v.rbc.slots v.rbc.owed n
        _ = g (s.rbc.failed kind read echo) := by rw [← hwire]; exact (hg _ _ _ _).symm
    have hrun : (s.rbc.failed kind read echo).dominantRun = w.dominantRun ∧
        (s.rbc.failed kind read echo).recessiveRun = w.recessiveRun := by
      rw [hfailed, hw]
      exact ⟨rfl, rfl⟩
    have hdominant := (hfield Rbc.dominantRun fun _ _ _ _ => rfl).trans hrun.1
    have hrecessive := (hfield Rbc.recessiveRun fun _ _ _ _ => rfl).trans hrun.2
    have hbusOff : (s.settle (s.enterBusOff v)).rbc.busOff = v.rbc.busOff :=
      (hfield Rbc.busOff fun _ _ _ _ => rfl).trans (by rw [← hwire]; rfl)
    refine ⟨_, hexec, ?_, ?_, hclosed.noSending (hframes.noSending hnone), ?_, hdominant, hrecessive,
      fun hactive hecho => ?_, hsettled.time.trans (hutime.trans htime), hsettled.loader.trans (huloader.trans hloader),
      hsettled.tone.trans (hutone.trans htone), fun hsame habort hretry => ?_, fun hin hout => ?_⟩
    · exact (hfield Rbc.txErrors fun _ _ _ _ => rfl).trans (by rw [hfailed])
    · exact (hfield Rbc.rxErrors fun _ _ _ _ => rfl).trans (by rw [hfailed, hread])
    · exact (hfield Rbc.stuck fun _ _ _ _ => rfl).trans (by rw [hfailed, hread]; exact hstuck)
    · have hpattern : w = (s.rbc.readBits read).readBits (bitsOf 8 (0 : BitVec 8).toNat) := by
        subst hecho
        exact congrArg (Rbc.readBits · (s.rbc.readBits read)) (if_pos hactive)
      rw [hdominant, hrecessive, hpattern]
      exact Rbc.readBits_pattern _
    · have hstay : s.enterBusOff v = v := State.enterBusOff_of_same (hbusOff.symm.trans hsame)
      have hx' : (s.rbc.failed kind read echo).sendingSlot = some x := by
        rw [hfailed, hread]
        exact hx
      have hended : v = State.endAttempt (if kind = .ack then x.unacked + 1 else x.unacked)
          { s with rbc := s.rbc.failed kind read echo } := by
        rw [← hv, State.afterError]
        by_cases hack : kind = .ack
        · have hthird : ¬ 3 ≤ x.unacked + 1 := fun h3 => absurd (hretry.resolve_left (not_not.mpr hack)) (Nat.not_lt.mpr h3)
          rw [if_pos hack, if_neg hthird, if_pos hack]
        · rw [if_neg hack, if_neg hack]
      obtain ⟨slots, hrbc, _, hkept, _⟩ := State.endAttempt_spec (s := { s with rbc := s.rbc.failed kind read echo }) hx'
        (if kind = .ack then x.unacked + 1 else x.unacked)
      have hvrbc : v.rbc = { s.rbc.failed kind read echo with slots := slots } := by
        rw [hended]
        exact hrbc
      have hsolo : v.solo = s.solo := by
        have hbo : v.rbc.busOff = s.rbc.busOff := hbusOff.symm.trans hsame
        have hst : v.rbc.stuck = s.rbc.stuck := by rw [hvrbc, hfailed, hread]
        rw [State.solo, State.solo, Rbc.solo, Rbc.solo, hbo, hst]
      have heligible : v.eligible = s.eligible := by
        have hjoin : v.rbc.join = s.rbc.join := by rw [hvrbc, hfailed, hread]
        have hrest : v.loader = s.loader ∧ v.clock = s.clock ∧ v.queue = s.queue ∧ v.view = s.view := by
          rw [hended]
          exact ⟨by simp, by simp, by simp, by simp⟩
        obtain ⟨hl, hc, hq, hvw⟩ := hrest
        rw [State.eligible, State.eligible, hsolo, hjoin, hl, hc, hq, hvw]
      have hkeep := State.settle_slots_prefix (before := s) (s := v) fun he => heligible.trans he
      rw [hstay] at hsettled ⊢
      refine ⟨hkeep.subset ?_, hsettled.zone.trans hzone⟩
      rw [hvrbc]
      exact hkept habort
    · have hentry := State.enterBusOff_entry (s := v) (hbusOff.symm.trans hin) hout hstuck
      rw [hentry] at hsettled hclosed ⊢
      obtain ⟨howed, hslots⟩ := State.dropReleases_gone (State.enterSolo_framesFrom _) hclosed
      refine ⟨howed, hslots, ?_, ?_⟩
      · exact (hsettled.rbc_field Rbc.recovery fun _ _ _ => rfl).trans (State.enterSolo_keepsBus _).recovery
      · rw [hsettled.zone, State.enterSolo_zone]
        exact congrArg (fun z : ZoneUnit => { z with busTimer := true }) hzone
  · unfold Rbc.losesAttempt
    rw [if_pos (State.losesAttempt_frameStart hm h hx), decide_eq_true_iff]

/-! #### STUCK and the ways out of solo mode -/

/-- Every RELEASE dropped, and solo mode entered where it is not held (R94, R117). -/
theorem State.dropAndEnter_spec (d : State) (held : Bool) :
    let u := if held then d.dropReleases else d.dropReleases.enterSolo
    d.dropReleases.FramesFrom u ∧ d.dropReleases.KeepsBus u ∧ u.time = d.time ∧ u.loader = d.loader ∧ u.tone = d.tone ∧
      u.zone = if held then d.zone else { d.zone with busTimer := true } := by
  cases held with
  | true => exact ⟨.of_rbc rfl, .refl _, rfl, rfl, rfl, rfl⟩
  | false =>
    have hkeeps := State.enterSolo_keeps d.dropReleases
    exact ⟨State.enterSolo_framesFrom _, State.enterSolo_keepsBus _, hkeeps.time, hkeeps.loader, State.enterSolo_tone _,
      State.enterSolo_zone _⟩

theorem State.endAttempt_noSending (s : State) (unacked : Nat) : (s.endAttempt unacked).rbc.sendingSlot = none := by
  cases hx : s.rbc.sendingSlot with
  | none => rw [State.endAttempt, hx]; exact hx
  | some x =>
    obtain ⟨slots, hrbc, hnone, _⟩ := State.endAttempt_spec hx unacked
    rw [hrbc]
    exact (sendingSlot_none_iff _).mpr hnone

/-- Exit from solo mode clears the bus trouble timer and condition, and tells of one that was true (R11). -/
theorem State.leaveSolo_eq (s : State) : s.leaveSolo = { s with
    zone := { s.zone with busTimer := false, busTrouble := false }
    queue := if s.zone.busTrouble = true ∧ s.loader.configFault = false then
      s.queue.admitEvent s.time ⟨97, .bus, .cleared, 5⟩ else s.queue } := by
  unfold State.leaveSolo
  by_cases hb : s.zone.busTrouble = true
  · rw [if_pos hb, State.raise_eq]
    cases hf : s.loader.configFault <;> simp [hb, busCleared]
  · rw [if_neg hb, if_neg fun h => hb h.1]

theorem State.solo_of_settled {made left : State} (h : State.Settled made left) : left.solo = made.solo :=
  h.rbc_field Rbc.solo fun _ _ _ => rfl

/-- Settles O36. -/
theorem soloModeBeginsAndEnds : Obligations.SoloModeBeginsAndEnds := by
  unfold Obligations.SoloModeBeginsAndEnds
  refine ⟨fun s hj hs => ?_, fun s hs hb => ?_, fun s read => ?_⟩
  · have hguard : (s.rbc.joined && !s.rbc.stuck) = true := by simp [Rbc.joined, hj, hs]
    have hended := s.endAttempt_noSending s.sendingUnacked
    have hbus := s.endAttempt_keepsBus s.sendingUnacked
    generalize hd : ({ s.endAttempt s.sendingUnacked with rbc := { (s.endAttempt s.sendingUnacked).rbc with
        stuck := true, receiving := false, dominantRun := 64, recessiveRun := 0, recovery := 0 } } : State) = d
    obtain ⟨hframes, hkeeps, htime, hloader, htone, hzone⟩ := State.dropAndEnter_spec d s.solo
    have hexec : exec .stuckEntry s =
        .next (s.settle (if s.solo then d.dropReleases else d.dropReleases.enterSolo)) := by
      rw [← hd]
      exact if_pos hguard
    generalize (if s.solo then d.dropReleases else d.dropReleases.enterSolo) = u at *
    have hsettled := State.settle_settled s u
    have hclosed := State.settle_closed s u
    have hfield : ∀ {α : Type} (g : Rbc → α), (∀ b slots owed, g { b with slots := slots, owed := owed } = g b) →
        g (s.settle u).rbc = g d.rbc := fun g hg =>
      (hsettled.rbc_field g hg).trans ((hg u.rbc d.dropReleases.rbc.slots d.dropReleases.rbc.owed).symm.trans
        ((congrArg g hkeeps.wire).trans (hg d.rbc _ _)))
    have hdropped : d.dropReleases.rbc.sendingSlot = none := by
      refine d.dropReleases_framesFrom.noSending ?_
      rw [← hd]
      exact hended
    obtain ⟨howed, hslots⟩ := State.dropReleases_gone hframes hclosed
    refine ⟨_, hexec, ?_, ?_, ?_, ?_, hclosed.noSending (hframes.noSending hdropped), ?_, ?_, howed, hslots, ?_, ?_, ?_, ?_⟩
    · exact (hfield Rbc.stuck fun _ _ _ => rfl).trans (by rw [← hd])
    · refine (hfield Rbc.solo fun _ _ _ => rfl).trans ?_
      rw [← hd]
      exact Bool.or_true _
    · exact (hfield Rbc.dominantRun fun _ _ _ => rfl).trans (by rw [← hd])
    · exact (hfield Rbc.receiving fun _ _ _ => rfl).trans (by rw [← hd])
    · refine (hfield Rbc.txErrors fun _ _ _ => rfl).trans ?_
      rw [← hd]
      exact hbus.txErrors
    · refine (hfield Rbc.rxErrors fun _ _ _ => rfl).trans ?_
      rw [← hd]
      exact (congrArg Rbc.rxErrors hbus.wire :)
    · rw [hsettled.zone, hzone, ← hd]
      simp
    · rw [hsettled.time, htime, ← hd]
      simp
    · rw [hsettled.loader, hloader, ← hd]
      simp
    · rw [hsettled.tone, htone, ← hd]
      simp
  · have hexec : exec .stuckExit s = .next (s.settle { s with rbc := { s.rbc with
        stuck := false
        recessiveRun := 11
        dominantRun := 0
        recovery := 11 } }) := by
      refine (if_pos hs).trans ?_
      simp only [hb, if_true]
    refine ⟨_, hexec, (State.solo_of_settled (State.settle_settled _ _)).trans ?_, State.settle_settled _ _⟩
    exact Bool.or_eq_true_iff.mpr (.inl hb)
  · intro ended
    refine ⟨fun hs hb => ?_, fun hs hb hsound hread => ?_⟩
    · have hexec : exec .stuckExit s = .next (s.settle (State.leaveSolo { s with rbc := { s.rbc with
          stuck := false
          recessiveRun := 11
          dominantRun := 0
          recovery := 0 } })) := by
        refine (if_pos hs).trans ?_
        simp only [hb, Bool.false_eq_true, if_false]
      rw [State.leaveSolo_eq] at hexec
      refine ⟨_, hexec, (State.solo_of_settled (State.settle_settled _ _)).trans ?_, State.settle_settled _ _⟩
      exact Bool.or_eq_false_iff.mpr ⟨hb, rfl⟩
    · have hguard : (s.rbc.busOff && !s.rbc.stuck && decide ((s.rbc.readBits read).recovery = 2048)) = true := by
        simp [hs, hb, hread]
      have hexec : exec (.busOffRecovery read) s = .next (s.settle (State.leaveSolo { s with rbc := {
          s.rbc.readBits read with txErrors := 0, rxErrors := 0, recovery := 0, receiving := false } })) := if_pos hguard
      have hsettled := State.settle_settled s (State.leaveSolo { s with rbc := {
          s.rbc.readBits read with txErrors := 0, rxErrors := 0, recovery := 0, receiving := false } })
      obtain ⟨r, d, v, hbits⟩ := Rbc.readBits_frame read s.rbc
      have hidle : (s.rbc.readBits read).idle = true := by
        have := (hsound.readBits read).recovery
        rw [hread] at this
        exact Rbc.idle_iff.mpr (by omega)
      have hstuck : (s.rbc.readBits read).stuck = false := by
        rw [hbits]
        exact hs
      rw [State.leaveSolo_eq] at hexec hsettled
      refine ⟨_, hexec, (hsettled.rbc_field Rbc.confinement fun _ _ _ => rfl).trans rfl,
        (State.solo_of_settled hsettled).trans ?_, (hsettled.rbc_field Rbc.idle fun _ _ _ => rfl).trans hidle, hsettled⟩
      exact Bool.or_eq_false_iff.mpr ⟨rfl, hstuck⟩

end Sys2Proof.Machine

/-! ### What leaves the queue stays out of it; the timers of the Carry and the Indication Unit (R36, R148, R155, R175) -/

namespace Sys2Proof.Machine

open Host

namespace AlertQueue

variable {q p l : AlertQueue}

/-- Every record has the admission order of one that was there, and what else is named of it, or it is new (R20). -/
structure RecordsFrom {α : Type} (name : Record → α) (q p : AlertQueue) : Prop where
  records : ∀ x ∈ p.records, (∃ y ∈ q.records, y.order = x.order ∧ name y = name x) ∨ q.admissions ≤ x.order
  admissions : q.admissions ≤ p.admissions

namespace RecordsFrom

variable {α : Type} {name : Record → α}

theorem refl (q : AlertQueue) : RecordsFrom name q q := ⟨fun x hx => .inl ⟨x, hx, rfl, rfl⟩, Nat.le_refl _⟩

theorem trans (h : RecordsFrom name q p) (g : RecordsFrom name p l) : RecordsFrom name q l where
  records x hx := by
    rcases g.records x hx with ⟨y, hy, ho, hn⟩ | hnew
    · rcases h.records y hy with ⟨z, hz, hzo, hzn⟩ | hnew
      · exact .inl ⟨z, hz, hzo.trans ho, hzn.trans hn⟩
      · exact .inr (ho ▸ hnew)
    · exact .inr (h.admissions.trans hnew)
  admissions := h.admissions.trans g.admissions

theorem of_records (hr : p.records = q.records) (ha : p.admissions = q.admissions) : RecordsFrom name q p :=
  ⟨fun x hx => .inl ⟨x, hr ▸ hx, rfl, rfl⟩, ha.ge⟩

theorem of_subset (hr : ∀ x ∈ p.records, x ∈ q.records) (ha : p.admissions = q.admissions) : RecordsFrom name q p :=
  ⟨fun x hx => .inl ⟨x, hr x hx, rfl, rfl⟩, ha.ge⟩

theorem remove (q : AlertQueue) (order : Nat) : RecordsFrom name q (q.remove order) :=
  of_subset (fun _ hx => (List.mem_filter.mp hx).1) rfl

theorem modify (q : AlertQueue) (order : Nat) {f : Record → Record} (hf : ∀ r, (f r).order = r.order ∧ name (f r) = name r) :
    RecordsFrom name q (q.modify order f) where
  records x hx := by
    obtain ⟨y, hy, rfl⟩ := List.mem_map.mp hx
    refine .inl ⟨y, hy, ?_⟩
    split
    · exact ⟨(hf y).1.symm, (hf y).2.symm⟩
    · exact ⟨rfl, rfl⟩
  admissions := Nat.le_refl _

theorem createOrDisplace (q : AlertQueue) (now : Nat) (e : Event) : RecordsFrom name q (q.createOrDisplace now e) := by
  have hcreate : ∀ a : AlertQueue, RecordsFrom name a (a.create now e) := fun a => by
    refine ⟨fun x hx => ?_, Nat.le_succ _⟩
    rcases List.mem_append.mp hx with hx | hx
    · exact .inl ⟨x, hx, rfl, rfl⟩
    · exact .inr (List.mem_singleton.mp hx ▸ Nat.le_refl _)
  unfold AlertQueue.createOrDisplace
  split
  · exact hcreate q
  · split
    · exact ((remove q _).trans (hcreate _)).trans (of_records rfl rfl)
    · exact of_records rfl rfl

section
variable (hbump : ∀ r, name (AlertQueue.bump r) = name r)
include hbump

theorem takeEvent (q : AlertQueue) (now : Nat) (e : Event) : RecordsFrom name q (q.takeEvent now e).1 := by
  unfold AlertQueue.takeEvent
  split
  · exact createOrDisplace q now e
  · split
    · exact modify q _ fun r => ⟨rfl, hbump r⟩
    · split
      · split
        · exact (remove q _).trans (modify _ _ fun r => ⟨rfl, hbump r⟩)
        · exact createOrDisplace q now e
      · exact createOrDisplace q now e

theorem afterDeparture (q : AlertQueue) (now : Nat) : RecordsFrom name q (q.afterDeparture now) := by
  unfold AlertQueue.afterDeparture
  split
  · exact (takeEvent hbump q now _).trans (of_records rfl rfl)
  · exact refl q

theorem admitEvent (q : AlertQueue) (now : Nat) (e : Event) : RecordsFrom name q (q.admitEvent now e) := by
  unfold AlertQueue.admitEvent
  split
  · exact (takeEvent hbump q now e).trans (afterDeparture hbump _ _)
  · exact takeEvent hbump q now e

theorem depart (q : AlertQueue) (now order : Nat) : RecordsFrom name q (q.depart now order) :=
  (remove q order).trans (afterDeparture hbump _ _)

end

/-- A record that is gone stays so. -/
theorem gone (h : RecordsFrom name q p) {order : Nat} (hq : ∀ x ∈ q.records, x.order ≠ order) (ho : order < q.admissions) :
    ∀ x ∈ p.records, x.order ≠ order := fun x hx heq => by
  rcases h.records x hx with ⟨y, hy, hyo, _⟩ | hnew
  · exact hq y hy (hyo.trans heq)
  · omega

end RecordsFrom

theorem remove_gone (q : AlertQueue) (order : Nat) : ∀ x ∈ (q.remove order).records, x.order ≠ order := fun _ hx =>
  of_decide_eq_true (List.mem_filter.mp hx).2

/-- A record that departs is gone. -/
theorem Sound.depart_gone (h : q.Sound) {r : Record} (hr : r ∈ q.records) (now : Nat) :
    ∀ x ∈ (q.depart now r.order).records, x.order ≠ r.order :=
  (RecordsFrom.afterDeparture (name := Record.order) (fun _ => rfl) (q.remove r.order) now).gone
    (remove_gone q r.order) (h.ordered.2 r hr)

theorem find_eq_none {order : Nat} (h : ∀ x ∈ q.records, x.order ≠ order) : q.find order = none :=
  List.find?_eq_none.mpr fun x hx => by simpa using h x hx

theorem giveBack_of_gone {order : Nat} (h : ∀ x ∈ q.records, x.order ≠ order) (now : Nat) : q.giveBack now order = q := by
  simp only [giveBack, find_eq_none h]

/-- Whatever was changed of a record before, its removal is the same. -/
theorem remove_modify (q : AlertQueue) (order : Nat) {f : Record → Record} (hf : ∀ r, r.order = order → (f r).order = r.order) :
    (q.modify order f).remove order = q.remove order := by
  unfold AlertQueue.remove AlertQueue.modify
  congr 1
  induction q.records with
  | nil => rfl
  | cons x rest ih =>
    rw [List.map_cons, List.filter_cons, List.filter_cons, ih]
    by_cases hx : x.order = order
    · simp [hx, hf x hx]
    · simp [hx]

theorem depart_modify (q : AlertQueue) (now order : Nat) {f : Record → Record}
    (hf : ∀ r, r.order = order → (f r).order = r.order) : (q.modify order f).depart now order = q.depart now order := by
  rw [AlertQueue.depart, remove_modify q order hf, AlertQueue.depart]

end AlertQueue

/-- Records gone before the end of a step stay gone. -/
theorem State.Settled.gone {made left : State} (h : State.Settled made left) {order : Nat}
    (hm : ∀ x ∈ made.queue.records, x.order ≠ order) : ∀ x ∈ left.queue.records, x.order ≠ order := fun x hx heq => by
  have hstill : x.still ∈ made.queue.records.map Record.still := h.records ▸ List.mem_map_of_mem hx
  obtain ⟨y, hy, hyx⟩ := List.mem_map.mp hstill
  exact hm y hy ((congrArg Record.order hyx :).trans heq)

/-! #### An offer unanswered (R148) -/

theorem offerAgainAt_own {r : Record} {o : OwnPart} (h : r.kind = .own o) (time : Nat) :
    offerAgainAt time r = { r with kind := .own { o with nextOffer := time } } := by
  simp only [offerAgainAt, h]

theorem State.raiseAll_commNew (s : State) (told : Bool) : s.raiseAll (if told then [commNew] else []) = { s with
    queue := if told = true ∧ s.loader.configFault = false then s.queue.admitEvent s.time ⟨96, .comm, .new, 4⟩
      else s.queue } := by
  cases told with
  | false => simp [State.raiseAll]
  | true =>
    change s.raise commNew = _
    rw [State.raise_eq]
    cases hf : s.loader.configFault <;> simp [commNew]

/-- An attempt checked against M at an own record (R36). -/
theorem State.checkAttempts_own {s : State} {r : Record} {o : OwnPart} (hr : r.kind = .own o) :
    s.checkAttempts r =
      if s.loader.settings.maxAttempts ≤ r.attempts then
        if 3 ≤ r.cls then
          ({ s with queue := AlertQueue.depart s.time r.order { s.queue with commFail := true } },
            if decide (r.source ≠ 96) then [commNew] else [])
        else ({ s with queue := { s.queue with commFail := true } }, if !s.queue.commFail then [commNew] else [])
      else (s, []) := by
  unfold State.checkAttempts
  simp only [hr]
  by_cases h96 : r.source = 96 <;> cases s.queue.commFail <;> simp [h96]

/-- A record changed by two functions that agree on it. -/
theorem AlertQueue.Sound.modify_congr {q : AlertQueue} (h : q.Sound) {r : Record} (hr : r ∈ q.records)
    {f g : Record → Record} (hfg : f r = g r) : q.modify r.order f = q.modify r.order g := by
  rw [h.modify_eq hr, h.modify_eq hr, hfg]

/-- An own record after an unanswered offer that counted (R148). -/
def Record.unanswered (o : OwnPart) (time : Nat) (r : Record) : Record :=
  { r with kind := .own { o with nextOffer := time + 60 }, attempts := min 15 (r.attempts + 1) }

section
variable {s : State} {r : Record} {o : OwnPart} {key : Nat}

/-- An offer unanswered, by the count against its record. -/
theorem State.offerUnanswered_eq (hr : s.queue.findSeq o.seq = some r) :
    s.offerUnanswered ⟨o.seq, key, .window⟩ =
      let counted := State.countUnanswered r { s with carry := { s.carry with offer := none } }
      State.raiseAll counted.2 { counted.1 with queue := counted.1.queue.giveBack s.time r.order } := by
  simp only [State.offerUnanswered, hr]

/-- At a station that can dial, nothing is counted. -/
theorem State.offerUnanswered_free (hq : s.queue.Sound) (hr : s.queue.findSeq o.seq = some r) (hk : r.kind = .own o)
    (hd : s.cannotDial = false) : s.offerUnanswered ⟨o.seq, key, .window⟩ = { s with
      carry := { s.carry with offer := none }
      queue := (s.queue.modify r.order fun x => { x with
        kind := .own { o with nextOffer := s.time + 60 } }).giveBack s.time r.order } := by
  have hd' : State.cannotDial { s with carry := { s.carry with offer := none } } = false := hd
  rw [State.offerUnanswered_eq hr, State.countUnanswered, if_neg (by simp [hd'])]
  have hsame : s.queue.modify r.order (offerAgainAt (s.time + 60)) = s.queue.modify r.order fun x => { x with
      kind := .own { o with nextOffer := s.time + 60 } } :=
    hq.modify_congr (AlertQueue.findSeq_mem hr).1 (offerAgainAt_own hk _)
  simp only [State.raiseAll, List.foldl_nil, hsame]

/-- At a station that cannot dial, an attempt is counted and checked against M (R36). -/
theorem State.offerUnanswered_counted (hq : s.queue.Sound) (hr : s.queue.findSeq o.seq = some r) (hk : r.kind = .own o)
    (hd : s.cannotDial = true) {checked : State × List Event}
    (hc : State.checkAttempts (r.unanswered o s.time) { s with
      carry := { s.carry with offer := none }
      queue := s.queue.modify r.order (Record.unanswered o s.time) } = checked) :
    s.offerUnanswered ⟨o.seq, key, .window⟩ =
      State.raiseAll checked.2 { checked.1 with queue := checked.1.queue.giveBack s.time r.order } := by
  have hd' : State.cannotDial { s with carry := { s.carry with offer := none } } = true := hd
  have hraised : offerAgainAt (s.time + 60) { r with attempts := raisedAttempts r } = r.unanswered o s.time :=
    offerAgainAt_own (r := { r with attempts := raisedAttempts r }) hk _
  have hsame : (s.queue.modify r.order fun _ => r.unanswered o s.time) = s.queue.modify r.order (Record.unanswered o s.time) :=
    hq.modify_congr (AlertQueue.findSeq_mem hr).1 rfl
  rw [State.offerUnanswered_eq hr, State.countUnanswered, if_pos hd', State.countAttempt]
  simp only [hraised, hsame, hc]

theorem CarryUnit.addOutcome_offer (origin : Nat) (seq : Byte) (result : Result) (c : CarryUnit) :
    (c.addOutcome origin seq result).offer = c.offer := by
  unfold CarryUnit.addOutcome
  (repeat' split) <;> rfl

theorem State.checkAttempts_offer (s : State) (r : Record) : (s.checkAttempts r).1.carry.offer = s.carry.offer := by
  unfold State.checkAttempts
  (repeat' split) <;> first
    | rfl
    | exact CarryUnit.addOutcome_offer _ _ _ _

theorem State.offerUnanswered_offer (s : State) (offer : Offer) : (s.offerUnanswered offer).carry.offer = none := by
  have hcounted : ∀ (a : State) (r : Record), (a.countUnanswered r).1.carry.offer = a.carry.offer := fun a r => by
    unfold State.countUnanswered
    split
    · exact State.checkAttempts_offer _ _
    · rfl
  unfold State.offerUnanswered
  dsimp only
  split
  · rfl
  · rw [State.raiseAll_carry]
    exact hcounted _ _

end

/-- Settles O53: the offer by what is counted against its record; the two other timers move frames alone. -/
theorem unitTimersComplete : Obligations.UnitTimersComplete := by
  unfold Obligations.UnitTimersComplete
  refine ⟨fun s r o key hq ho hr hk => ?_, fun s a ha => ?_, fun s hs => ?_⟩
  · have hmem := (AlertQueue.findSeq_mem hr).1
    have hexec : exec .offerWindowExpiry s = .next (s.settle (s.offerUnanswered ⟨o.seq, key, .window⟩)) := by
      change execOfferWindowExpiry s = _
      simp only [execOfferWindowExpiry, ho, if_true]
    have hsettled := State.settle_settled s (s.offerUnanswered ⟨o.seq, key, .window⟩)
    have hcheck := State.checkAttempts_own (r := r.unanswered o s.time) (o := { o with nextOffer := s.time + 60 })
      (s := { s with
        carry := { s.carry with offer := none }
        queue := s.queue.modify r.order (Record.unanswered o s.time) }) rfl
    refine ⟨_, hexec, (State.settle_closed s _).offerNew (State.offerUnanswered_offer s _), fun hd => ?_, fun hd hlow => ?_,
      fun hd hlast => ?_⟩
    · rw [State.offerUnanswered_free hq hr hk hd] at hsettled ⊢
      exact hsettled
    · rw [if_neg (Nat.not_le.mpr (by exact hlow))] at hcheck
      have hmade : s.offerUnanswered ⟨o.seq, key, .window⟩ = { s with
          carry := { s.carry with offer := none }
          queue := (s.queue.modify r.order (Record.unanswered o s.time)).giveBack s.time r.order } :=
        State.offerUnanswered_counted hq hr hk hd hcheck
      rw [hmade, hq.modify_congr hmem (by rfl)] at hsettled ⊢
      exact hsettled
    · intro gone back
      rw [if_pos (by exact hlast)] at hcheck
      refine ⟨fun h3 => ?_, fun h2 => ?_⟩
      · rw [if_pos (by exact h3)] at hcheck
        have hmade := State.offerUnanswered_counted (key := key) hq hr hk hd hcheck
        have hdepart : AlertQueue.depart s.time r.order { s.queue.modify r.order (Record.unanswered o s.time) with
            commFail := true } = gone :=
          AlertQueue.depart_modify ({ s.queue with commFail := true } : AlertQueue) s.time r.order fun _ _ => rfl
        have hsound : AlertQueue.Sound { s.queue with commFail := true } := hq.of_records ⟨rfl, rfl⟩
        have hgone : ∀ x ∈ gone.records, x.order ≠ r.order := hsound.depart_gone (by exact hmem) s.time
        have hback : gone.giveBack s.time r.order = gone := AlertQueue.giveBack_of_gone hgone s.time
        have hmade' : s.offerUnanswered ⟨o.seq, key, .window⟩ = { s with
            carry := { s.carry with offer := none }
            queue := if decide (r.source ≠ 96) = true ∧ s.loader.configFault = false then
              gone.admitEvent s.time ⟨96, .comm, .new, 4⟩ else gone } := by
          have hleft := (congrArg (AlertQueue.giveBack s.time r.order) hdepart).trans hback
          exact hmade.trans ((congrArg (fun q => State.raiseAll _ ({ s with
            carry := { s.carry with offer := none }, queue := q } : State)) hleft).trans
              (State.raiseAll_commNew _ (decide (r.source ≠ 96))))
        have htold : (decide (r.source ≠ 96) = true ∧ s.loader.configFault = false) ↔
            (s.loader.configFault = false ∧ r.source ≠ 96) := by rw [decide_eq_true_iff, and_comm]
        simp only [htold] at hmade'
        rw [hmade'] at hsettled ⊢
        refine ⟨hsettled.gone ?_, hsettled⟩
        dsimp only
        split
        · exact (AlertQueue.RecordsFrom.admitEvent (name := Record.order) (fun _ => rfl) gone s.time _).gone hgone
            (hsound.ordered.2 r hmem |>.trans_le
              (AlertQueue.RecordsFrom.depart (name := Record.order) (fun _ => rfl) _ _ _).admissions)
        · exact hgone
      · rw [if_neg (by exact Nat.not_le.mpr (Nat.lt_succ_of_le h2))] at hcheck
        have hmade := State.offerUnanswered_counted (key := key) hq hr hk hd hcheck
        have hsound : AlertQueue.Sound { s.queue with commFail := true } := hq.of_records ⟨rfl, rfl⟩
        have hback : AlertQueue.giveBack s.time r.order { s.queue.modify r.order (Record.unanswered o s.time) with
            commFail := true } = back :=
          congrArg (AlertQueue.giveBack s.time r.order)
            (hsound.modify_congr (f := Record.unanswered o s.time) (by exact hmem) rfl)
        have hmade' : s.offerUnanswered ⟨o.seq, key, .window⟩ = { s with
            carry := { s.carry with offer := none }
            queue := if (!s.queue.commFail) = true ∧ s.loader.configFault = false then
              back.admitEvent s.time ⟨96, .comm, .new, 4⟩ else back } := by
          rw [hmade]
          simp only [hback]
          exact State.raiseAll_commNew _ (!s.queue.commFail)
        have htold : ((!s.queue.commFail) = true ∧ s.loader.configFault = false) ↔
            (s.loader.configFault = false ∧ s.queue.commFail = false) := by rw [Bool.not_eq_true', and_comm]
        simp only [htold] at hmade'
        rw [hmade'] at hsettled ⊢
        exact hsettled
  · have hframes := State.settleFrames_framesOnly s s.endAccept
    have hclosed := State.settleFrames_closed s s.endAccept
    have hended : s.endAccept = State.cancel (fun m => decide (m = .accept a.origin a.seq a.value))
        { s with carry := { s.carry with accept := none } } := by
      simp only [State.endAccept, ha]
    have hcarry : s.endAccept.carry = { s.carry with accept := none } := by
      rw [hended]
      exact State.cancel_carry_of _ _ fun _ _ _ => rfl
    refine ⟨_, if_pos (by simp [ha]), ?_, (State.endAccept_settled s).trans hframes.settled, ?_, ?_, ?_, ?_, ?_, fun hn => ?_⟩
    · rw [hframes.sameAccept, hcarry]
    · rw [hframes.sameQueue, State.endAccept_queue]
    · rw [hframes.sameCall, State.endAccept_call]
    · rw [hframes.sameView, State.endAccept_view]
    · rw [hframes.sameClock, State.endAccept_clock]
    · rw [hframes.sameOffer, hcarry]
    · rw [Bool.eq_false_iff]
      intro h
      have hmade := hclosed.owesOnly _ rfl h
      rw [hended, State.cancel_gone _ _ _ (decide_eq_true rfl) (by exact hn)] at hmade
      cases hmade
  · refine ⟨_, if_pos hs, State.settleFrames_framesOnly s _, fun ho ha => ?_⟩
    have hsame : State.noteReported s { s with ind := { s.ind with spacing := false } } =
        { s with ind := { s.ind with spacing := false } } := if_pos rfl
    have howed := State.oweState_owes (s := { s with ind := { s.ind with spacing := false } }) ho rfl ha
    rw [State.settleFrames, hsame]
    exact State.loadOne_owes (State.loadOne_owes (State.loadOne_owes howed))

end Sys2Proof.Machine

/-! ### The call goes forward (R69, R127 to R136) -/

namespace Sys2Proof.Machine

open Host

/-- What is left of a number being dialled: the detector's class is NONE under a digit's tones (R121, R131). -/
def Tone.dialling : List DialDigit → Tone → Tone
  | .digit _ :: _, t => { t with cls := .none }
  | _, t => t

theorem State.dialFrom_eq {digits : List DialDigit} (h : digits ≠ []) (s : State) : s.dialFrom digits = { s with
    call := { s.call with timer := some .digit, digits := digits }
    tone := s.tone.dialling digits } := by
  match digits, h with
  | .pause :: _, _ => rfl
  | .digit _ :: _, _ => rfl

/-- The station as it begins to dial on a line proved by its dial tone. -/
def State.dialled (k : LineId) (digits : List DialDigit) (s : State) : State := { s with
  view := s.view.update k fun e => { e with failures := 0 }
  call := { s.call with state := .dial, timer := some .digit, digits := digits }
  tone := s.tone.dialling digits }

theorem State.lineProved_enterDial {s : State} {k : LineId} {r : Record} {digits : List DialDigit}
    (hk : s.call.line = some k) (hr : s.callLead = some r) (hd : digits =
      (if r.second = true ∧ s.loader.settings.number2 ≠ [] then s.loader.settings.number2 else s.loader.settings.number1))
    (hne : digits ≠ []) : s.lineProved.enterDial = s.dialled k digits := by
  have hproved : s.lineProved = { s with view := s.view.update k fun e => { e with failures := 0 } } := by
    simp only [State.lineProved, hk]
  have hnumber : State.numberToDial { s with view := s.view.update k fun e => { e with failures := 0 } } = digits := by
    have hlead : State.callLead { s with view := s.view.update k fun e => { e with failures := 0 } } = some r := hr
    rw [State.numberToDial, hlead, hd]
    simp
  rw [State.enterDial, hproved, hnumber, State.dialFrom_eq hne]
  rfl

theorem State.dialled_entry (k j : LineId) (digits : List DialDigit) (s : State) : (s.dialled k digits).entry j =
    if j = k then { s.entry j with failures := 0 } else s.entry j :=
  LineView.get_update s.view j k fun e => { e with failures := 0 }

theorem State.dialled_inTrouble (k j : LineId) (digits : List DialDigit) (s : State) :
    ((s.dialled k digits).entry j).inTrouble s.loader.settings.lineThreshold = true ↔ (s.entry j).wired = true ∧
      (s.loader.settings.lineThreshold ≤ (if j = k then 0 else (s.entry j).failures) ∨ (s.entry j).dead = true) := by
  rw [State.dialled_entry, Entry.inTrouble_iff, Entry.Troubled]
  split
  · rfl
  · rfl

/-- Settles O55: the dial tone by `State.dialled` and the recomputed trouble flags; each other move by its arm. -/
theorem callGoesForward : Obligations.CallGoesForward := by
  unfold Obligations.CallGoesForward
  refine ⟨fun account r => ?_, fun s k hk hs ht => ?_, fun s k r digits hk hs ht hc hr hd hne => ?_, fun s hs ht => ?_,
    fun s hs ht hc => if_pos (by simp [State.timing_iff, hs, ht, hc]), fun s r c hr hc => ?_,
    fun s hs ht => if_pos (State.timing_iff.mpr ⟨hs, ht⟩)⟩
  · intro text
    have htext : ∀ a relay seq, blockSymbols a r relay seq = text a relay seq := fun a relay seq => by
      have hseq : seq % 100 % 10 = seq % 10 := Nat.mod_mod_of_dvd seq ⟨10, rfl⟩
      rw [blockSymbols, hseq]
      rfl
    refine ⟨fun o ho => ?_, fun c hc => ?_⟩
    · rw [Record.block, Record.symbols, ho, ← htext]
    · rw [Record.block, Record.symbols, hc, ← htext]
  · change execBargeClearingEnd s = _
    simp only [execBargeClearingEnd, hk, State.timing_iff.mpr ⟨hs, ht⟩, if_true, State.closeHook]
  · intro troubled
    have hexec : exec .dialToneJudged s = .next (s.settle (s.dialled k digits).refreshTrouble) := by
      rw [← State.lineProved_enterDial hk hr hd hne]
      exact if_pos (by simp [State.timing_iff, hs, ht, hc])
    have hset := State.settle_settled s (s.dialled k digits).refreshTrouble
    refine ⟨_, hexec, ?_⟩
    generalize s.settle (s.dialled k digits).refreshTrouble = t at hset
    have hflag : ∀ j, ((s.dialled k digits).refreshTrouble.entry j).trouble = true ↔ troubled j := fun j => by
      rw [State.refreshTrouble_trouble]
      exact State.dialled_inTrouble k j digits s
    have hold : ∀ j, ((s.dialled k digits).entry j).trouble = (s.entry j).trouble := fun j => by
      rw [State.dialled_entry]
      split <;> rfl
    have hsame : ∀ j, ((s.entry j).trouble = true ↔ troubled j) →
        ((s.dialled k digits).refreshTrouble.entry j).trouble = ((s.dialled k digits).entry j).trouble := fun j hj => by
      rw [hold j]
      exact Bool.eq_iff_iff.mpr ((hflag j).trans hj.symm)
    have hcall : t.call = { s.call with state := .dial, timer := some .digit, digits := digits } ∧ t.clock = s.clock ∧
        t.view = (s.dialled k digits).refreshTrouble.view := by
      obtain ⟨hcall, hclock, hview⟩ := hset.call (by simp [State.dialled])
      exact ⟨hcall.trans (by simp [State.dialled]), hclock.trans (by simp [State.dialled]), hview⟩
    have hentry : ∀ j, t.entry j = (s.dialled k digits).refreshTrouble.entry j := fun j => congrArg (·.get j) hcall.2.2
    have htone : t.tone = s.tone.dialling digits := hset.tone.trans (by simp [State.dialled])
    refine ⟨?_, fun j => by rw [hentry]; exact hflag j, fun j => ?_, fun j hj => ?_, fun hf h0 hn hothers => ?_, fun hall => ?_,
      hcall.1, fun d rest hdigits => ⟨?_, ?_⟩, fun rest hdigits => ⟨?_, ?_⟩, hset.loader.trans (by simp [State.dialled]),
      hset.time.trans (by simp [State.dialled]), hset.zone.trans (by simp [State.dialled]), hcall.2.1⟩
    · rw [hentry, State.refreshTrouble_entry, State.dialled_entry, if_pos rfl]
    · rw [hentry, State.refreshTrouble_entry, State.dialled_entry]
      split <;> rfl
    · rw [hentry, State.refreshTrouble_entry, State.dialled_entry, if_neg hj]
    · have htold := State.refreshTrouble_cleared k (s.dialled k digits) hf ((hold k).trans h0)
        (Bool.eq_false_iff.mpr fun h => hn ((hflag k).mp h)) fun j hj => hsame j (hothers j hj)
      exact htold ▸ hset.sameButStates
    · have hquiet := State.refreshTrouble_quiet (s.dialled k digits) fun j => hsame j (hall j)
      exact hquiet ▸ hset.sameButStates
    · rw [htone, hdigits]
      rfl
    · simp only [State.atx, hcall.1, hdigits]
    · rw [htone, hdigits]
      rfl
    · simp only [State.atx, hcall.1, hdigits]
  · have hexec : exec .digitEnd s = .next (s.dialFrom s.call.digits.tail) := if_pos (State.timing_iff.mpr ⟨hs, ht⟩)
    have hcall : ∀ digits, ({ s.call with timer := some .digit, digits := digits } : CallEngine) =
        { s.call with digits := digits } := fun digits => by rw [← ht]
    refine ⟨fun hd => ?_, fun rest hd => ?_, fun d rest hd => ?_⟩
    · rw [hexec, hd]
      rfl
    · rw [hexec, hd, State.dialFrom, hcall]
    · rw [hexec, hd, State.dialFrom, hcall]
  · rcases hc with ⟨rfl, hs, ht⟩ | ⟨rfl, hs, ht⟩ | ⟨rfl, hs, ht, hlow⟩
    · change execSettleEnd s = _
      simp only [execSettleEnd, hr, State.timing_iff.mpr ⟨hs, ht⟩, if_true]
      rfl
    · change execBetweenMessagesEnd s = _
      simp only [execBetweenMessagesEnd, hr, State.timing_iff.mpr ⟨hs, ht⟩, if_true]
      rfl
    · change execKissoffWaitExpiry s = _
      simp only [execKissoffWaitExpiry, hr, State.timing_iff.mpr ⟨hs, ht⟩, hlow, if_true]
      rfl

end Sys2Proof.Machine

/-! ### The choice of a call at the end of a step (R27, R99 to R101, R125, R126, R146) -/

namespace Sys2Proof.Machine

open Host

/-! #### Seizing -/

/-- From CLAIM with both reports to SEIZE (R126, R127). -/
theorem State.trySeize_of {s : State} {k : LineId} (hs : s.call.state = .claim) (hg : s.call.guardDone = true)
    (hf : s.call.fastReady = true) (hk : s.call.line = some k) : s.trySeize = s.enterSeize k := by
  rw [State.trySeize, if_pos ⟨hs, hg, hf⟩, hk]

theorem State.trySeize_of_not {s : State}
    (h : s.call.state ≠ .claim ∨ s.call.guardDone = false ∨ s.call.fastReady = false) : s.trySeize = s := by
  rw [State.trySeize, if_neg]
  rintro ⟨hs, hg, hf⟩
  rcases h with h | h | h
  · exact h hs
  · exact absurd (h.symm.trans hg) (by decide)
  · exact absurd (h.symm.trans hf) (by decide)

/-- Entry to SEIZE: the output asserted, and HOOK closed at once unless barging (R127). -/
theorem State.enterSeize_eq (k : LineId) (s : State) : s.enterSeize k = { s with call := { s.call with
    state := .seize
    barge := (s.entry k).barge
    seize := s.call.seize.set k true
    hook := if (s.entry k).barge then s.call.hook else s.call.hook.set k true
    timer := some (if (s.entry k).barge then .bargeClearing else .dialToneWait)
    lineLost := if (s.entry k).barge then s.call.lineLost else decide ((s.entry k).sense = some .noBattery) } } := by
  rw [State.enterSeize]
  split
  · next hb => simp only [hb]
  · next hb => simp only [Bool.eq_false_iff.mpr hb]; rfl

/-! #### What the choice reads -/

/-- Two stations that agree in all the choice of a call reads. -/
structure State.SameChoice (s t : State) : Prop where
  loader : t.loader = s.loader
  time : t.time = s.time
  queue : t.queue = s.queue
  view : t.view = s.view
  clock : t.clock = s.clock
  call : t.call = s.call
  solo : t.solo = s.solo

namespace State.SameChoice

variable {s t : State}

theorem canDial (h : s.SameChoice t) : t.canDial = s.canDial := by
  simp only [State.canDial, h.view, h.loader, h.clock]

theorem lead (h : s.SameChoice t) : t.lead = s.lead := by
  have hmay : t.mayLead = s.mayLead := funext fun r => by
    simp only [State.mayLead, State.mayCall, h.canDial, h.solo, h.time]
  simp only [State.lead, hmay, h.time, h.queue]

theorem firstDue (h : s.SameChoice t) : t.firstDue = s.firstDue := by
  have hdue : t.dueForOffer = s.dueForOffer := funext fun r => by
    simp only [State.dueForOffer, State.cannotDial, h.canDial, h.time, h.loader, h.view]
  simp only [State.firstDue, hdue, h.time, h.queue]

theorem offerable (h : s.SameChoice t) (ho : t.carry.offer = s.carry.offer) : t.offerable = s.offerable := by
  simp only [State.offerable, h.firstDue, ho, h.solo, h.loader]

theorem address (h : s.SameChoice t) : t.address = s.address := congrArg (fun l => l.strap.toNat) h.loader

theorem trans {u : State} (h : s.SameChoice t) (g : t.SameChoice u) : s.SameChoice u where
  loader := g.loader.trans h.loader
  time := g.time.trans h.time
  queue := g.queue.trans h.queue
  view := g.view.trans h.view
  clock := g.clock.trans h.clock
  call := g.call.trans h.call
  solo := g.solo.trans h.solo

end State.SameChoice

theorem State.checkAccept_sameChoice (before s : State) : s.SameChoice (before.checkAccept s) where
  loader := s.checkAccept_loader before
  time := s.checkAccept_time before
  queue := s.checkAccept_queue before
  view := s.checkAccept_view before
  clock := s.checkAccept_clock before
  call := s.checkAccept_call before
  solo := State.solo_of_settled (State.checkAccept_settled before s)

theorem State.checkAccept_offer (before s : State) : (before.checkAccept s).carry.offer = s.carry.offer := by
  have hframe : s.endAccept.carry.offer = s.carry.offer := by
    unfold State.endAccept
    split
    · rfl
    · rw [State.cancel_carry_of _ _ fun _ _ _ => rfl]
  unfold State.checkAccept
  split
  · exact hframe
  · rfl

theorem State.checkAccept_self (s : State) : s.checkAccept s = s := State.checkAccept_of_eligible id

/-! #### No call to place -/

/-- A call in progress, CONFIG_FAULT, no lead, or no line for it (R100). -/
def State.Resting (s : State) : Prop := s.call.state ≠ .idle ∨ s.loader.configFault = true ∨
  ∀ l, s.lead = some l → candidate s.view.entries s.solo l.cls = none

namespace State.Resting

variable {s t : State}

theorem same (h : s.Resting) (g : s.SameChoice t) : t.Resting := by
  unfold State.Resting
  rw [g.call, g.loader, g.lead, g.view, g.solo]
  exact h

theorem choose (h : s.Resting) : s.choose = s := by
  unfold State.choose
  split
  · next hi =>
    obtain ⟨hidle, hfault⟩ := hi
    rcases h with h | h | h
    · exact absurd hidle h
    · exact absurd h (by simpa using hfault)
    · split
      · rfl
      · next l hl => rw [h l hl]
  · rfl

theorem contested (h : s.Resting) : s.contested = false := by
  unfold State.contested
  split
  · next r d hr hd =>
    rcases h with h | h | h
    · simp [h]
    · simp [h]
    · simp [h r hr]
  · rfl

theorem chooseAndOffer (h : s.Resting) : s.chooseAndOffer = s.makeOffer := by
  rw [State.chooseAndOffer, h.contested, if_neg (by simp), h.choose]

theorem settle (h : s.Resting) (before : State) :
    before.settle s = before.settleFrames (before.checkAccept s).makeOffer := by
  rw [State.settle, (h.same (State.checkAccept_sameChoice before s)).chooseAndOffer, State.settleFrames]

/-- With no call to place the end of a step leaves the call, its clock and the view. -/
theorem settle_same (h : s.Resting) (before : State) : (before.settle s).call = s.call ∧
    (before.settle s).clock = s.clock ∧ (before.settle s).view = s.view := by
  have hframes := State.settleFrames_framesOnly before (before.checkAccept s).makeOffer
  rw [h.settle]
  exact ⟨by rw [hframes.sameCall]; simp, by rw [hframes.sameClock]; simp, by rw [hframes.sameView]; simp⟩

end State.Resting

theorem State.makeOffer_noneInCall {s : State} (h : s.queue.NoneInCall) : s.makeOffer.queue.NoneInCall := by
  unfold State.makeOffer
  split
  · exact h
  · split
    · exact h
    · exact fun x hx hc => h x (mem_modify_state (by simp) hx hc) hc

theorem State.Resting.settle_noneInCall {s : State} (h : s.Resting) (before : State) (hn : s.queue.NoneInCall) :
    (before.settle s).queue.NoneInCall := by
  have hframes := State.settleFrames_framesOnly before (before.checkAccept s).makeOffer
  rw [h.settle, hframes.sameQueue]
  exact State.makeOffer_noneInCall (by rw [State.checkAccept_queue]; exact hn)

/-- A station that cannot dial has no lead (R27). -/
theorem State.lead_of_cannotDial {s : State} (h : s.canDial = false) : s.lead = none := by
  have hnone : s.queue.records.filter s.mayLead = [] := List.filter_eq_nil_iff.mpr fun r _ => by simp [State.mayLead, h]
  rw [State.lead, hnone, firstOf]

/-! #### A call placed -/

theorem State.choose_eq {s : State} {r : Record} {k : LineId} {tier : Tier} (hi : s.call.state = .idle)
    (hf : s.loader.configFault = false) (hr : s.lead = some r)
    (hc : candidate s.view.entries s.solo r.cls = some (k, tier)) : s.choose = s.startCall r k tier := by
  simp only [State.choose, hi, hf, hr, hc, Bool.not_false, and_self, if_true]

/-- The clock requested by a claim just placed, by its state (R162). -/
theorem State.requestClock_clock (s : State) : s.requestClock.clock = (match s.clock.state with
    | .quiet => if s.clock.latch then s.clock else
      { s.clock with state := .warming, warmTimer := .running, steady := false }
    | .warming => s.clock
    | .active => { s.clock with releaseTimer := false }) := by
  cases hc : s.clock.state with
  | quiet =>
    simp only [State.requestClock, hc]
    split <;> rfl
  | warming => simp only [State.requestClock, hc]
  | active =>
    simp only [State.requestClock, hc, State.reportFastReady]
    split
    · rfl
    · simp

/-- The claim's call, before the clock answers. -/
def CallEngine.placed (order : Nat) (k : LineId) (solo : Bool) : CallEngine :=
  { CallEngine.idle with
    state := .claim, line := some k, lead := some order, inHand := some order, guardDone := solo }

/-- The call of a claim just placed: in solo mode with an ACTIVE clock it is in SEIZE, else in CLAIM (R116, R125, R126). -/
theorem State.placedCall {s : State} {order : Nat} {k : LineId} {solo : Bool}
    (h : s.call = CallEngine.placed order k solo) :
    s.requestClock.trySeize.call.state = (if solo = true ∧ s.clock.state = .active then .seize else .claim) ∧
    s.requestClock.trySeize.call.line = some k ∧ s.requestClock.trySeize.call.lead = some order ∧
    s.requestClock.trySeize.call.inHand = some order ∧ s.requestClock.trySeize.call.batch = 0 ∧
    s.requestClock.trySeize.call.sends = 0 := by
  have hwaits : ∀ t : State, t.call = s.call → t.trySeize = t := fun t ht =>
    State.trySeize_of_not (.inr (.inr (by rw [ht, h]; rfl)))
  cases hclock : s.clock.state with
  | quiet =>
    have hcall : s.requestClock.call = s.call := by
      simp only [State.requestClock, hclock]
      split <;> rfl
    rw [hwaits _ hcall, hcall, h]
    exact ⟨by simp [CallEngine.placed], rfl, rfl, rfl, rfl, rfl⟩
  | warming =>
    have hcall : s.requestClock = s := by simp only [State.requestClock, hclock]
    rw [hcall, hwaits _ rfl, h]
    exact ⟨by simp [CallEngine.placed], rfl, rfl, rfl, rfl, rfl⟩
  | active =>
    have hrequest : s.requestClock = State.trySeize { s with
        clock := { s.clock with releaseTimer := false }
        call := { CallEngine.placed order k solo with fastReady := true } } := by
      simp only [State.requestClock, hclock, State.reportFastReady, h]
      exact if_neg (by simp [CallEngine.placed])
    cases solo with
    | false =>
      rw [hrequest, State.trySeize_of_not (.inr (.inl rfl)), State.trySeize_of_not (.inr (.inl rfl))]
      exact ⟨rfl, rfl, rfl, rfl, rfl, rfl⟩
    | true =>
      have hseize : ∀ t : State, t.call = { CallEngine.placed order k true with fastReady := true } →
          t.trySeize = t.enterSeize k := fun t ht =>
        State.trySeize_of (by rw [ht]; rfl) (by rw [ht]; rfl) (by rw [ht]) (by rw [ht]; rfl)
      rw [hrequest, hseize { s with
        clock := { s.clock with releaseTimer := false }
        call := { CallEngine.placed order k true with fastReady := true } } rfl,
      State.enterSeize_eq, State.trySeize_of_not (.inl (by simp))]
      exact ⟨rfl, rfl, rfl, rfl, rfl, rfl⟩

/-- A claim placed by an IDLE engine. -/
theorem State.startCall_placed {s : State} {r : Record} (k : LineId) (tier : Tier) (hcall : s.call = CallEngine.idle)
    (hr : r ∈ s.queue.records) : State.Placed r k tier s (s.startCall r k tier) := by
  obtain ⟨hstate, hline, hlead, hinHand, hbatch, hsends⟩ := State.placedCall (k := k) (order := r.order) (solo := s.solo)
    (s := State.placeOn k tier r { s with
      queue := s.queue.modify r.order fun x => { x with state := .inCall }
      call := { s.call with state := .claim, lead := some r.order, inHand := some r.order, batch := 0, sends := 0 }
      clock := { s.clock with releaseTimer := false } }) (by rw [hcall]; rfl)
  have hentry : (s.startCall r k tier).entry k = (s.entry k).placeOwn (r.key s.time s.address) tier s.solo := by
    simp only [State.entry, State.startCall, State.trySeize_view, State.requestClock_view]
    exact LineView.get_update_same _ _ _
  have hqueue : (s.startCall r k tier).queue = s.queue.modify r.order fun x => { x with state := .inCall } := by
    simp [State.startCall]
  have hrbc : s.solo = false → (s.startCall r k tier).rbc =
      s.rbc.owe (.claim k (r.key s.time s.address) (decide (tier = .office))) := fun hs => by
    simp only [State.startCall, State.trySeize_rbc, State.requestClock_rbc]
    exact if_neg (by simp only [State.solo] at hs ⊢; simp [hs])
  have hclock : (s.startCall r k tier).clock = (match s.clock.state with
      | .quiet => if s.clock.latch then { s.clock with releaseTimer := false } else
        { s.clock with state := .warming, warmTimer := .running, steady := false, releaseTimer := false }
      | .warming => { s.clock with releaseTimer := false }
      | .active => { s.clock with releaseTimer := false }) := by
    simp only [State.startCall, State.trySeize_clock, State.requestClock_clock]
    rfl
  refine ⟨hstate, hline, hlead, hinHand, ⟨hbatch, hsends⟩, ?_, ?_, ?_, ?_, ?_, fun hs => ?_, ?_, ?_, ?_⟩
  · rw [hentry]; rfl
  · rw [hentry]; rfl
  · rw [hentry]; rfl
  · rw [hentry]; rfl
  · rw [hentry]; rfl
  · rw [hrbc hs]
    exact owes_owe_self _ _
  · rw [hqueue]
    exact modify_self hr _
  · rw [hclock]
    cases hc : s.clock.state <;> cases hl : s.clock.latch <;> simp [hc]
  · rw [hclock]
    cases s.clock.state <;> cases s.clock.latch <;> rfl

namespace State.Placed

variable {s s' u t : State} {r : Record} {k : LineId} {tier : Tier}

/-- The loading of frames leaves a placed claim. -/
theorem frames (h : State.Placed r k tier s u) (g : State.FramesOnly u t) : State.Placed r k tier s t := by
  have hentry : t.entry k = u.entry k := congrArg (·.get k) g.sameView
  obtain ⟨hstate, hline, hlead, hinHand, hcounts, hown, hkey, hbarge, hguard, hdone, hclaim, hrecord, hclock, hrelease⟩ := h
  constructor
  all_goals first
    | (rw [g.sameCall]; assumption)
    | (rw [hentry]; assumption)
    | (rw [g.sameClock]; assumption)
    | (rw [g.sameQueue]; assumption)
    | exact fun hs => g.settled.owed _ rfl (hclaim hs)

/-- What a placed claim reads of the station before it. -/
theorem same (h : State.Placed r k tier s u) (g : s'.SameChoice s) : State.Placed r k tier s' u := by
  obtain ⟨hstate, hline, hlead, hinHand, hcounts, hown, hkey, hbarge, hguard, hdone, hclaim, hrecord, hclock, hrelease⟩ := h
  rw [g.solo, g.clock] at hstate
  rw [g.time, g.address] at hkey
  rw [g.solo] at hdone
  rw [g.solo, g.time, g.address] at hclaim
  rw [g.clock] at hclock
  exact ⟨hstate, hline, hlead, hinHand, hcounts, hown, hkey, hbarge, hguard, hdone, hclaim, hrecord, hclock, hrelease⟩

end State.Placed

section
variable {s : State} {r : Record} {k : LineId} {tier : Tier} (hcall : s.call = CallEngine.idle)
  (hf : s.loader.configFault = false) (hr : s.lead = some r) (hc : candidate s.view.entries s.solo r.cls = some (k, tier))

include hcall hf hr hc in
/-- The choice of an IDLE engine with a lead and a line for it. -/
theorem State.choose_placed : State.Placed r k tier s s.choose := by
  rw [State.choose_eq (by rw [hcall]; rfl) hf hr hc]
  exact State.startCall_placed k tier hcall (State.lead_mem hr).1

include hcall hf hr hc in
theorem State.settleChoice_placed (before : State) : State.Placed r k tier s (before.settleChoice s) := by
  have hsame := State.checkAccept_sameChoice before s
  have hplaced := State.choose_placed (s := before.checkAccept s) (r := r) (k := k) (tier := tier) (by rw [hsame.call, hcall])
    (by rw [hsame.loader, hf]) (by rw [hsame.lead, hr]) (by rw [hsame.view, hsame.solo, hc])
  exact (hplaced.same hsame).frames (State.settleFrames_framesOnly before _)

end

theorem LineView.anyWired_iff (v : LineView) : v.anyWired = true ↔ ∃ k, (v.get k).wired = true := by
  simp only [LineView.anyWired, List.any_eq_true, mem_toList, exists_exists_eq_and]
  rfl

theorem firstOf_eq_none {now : Nat} {l : List Record} (h : firstOf now l = none) : l = [] := by
  by_contra hne
  obtain ⟨f, hf, _⟩ := firstOf_spec now hne
  exact absurd (hf.symm.trans h) (by simp)

theorem State.startCall_dueForOffer (r : Record) (k : LineId) (tier : Tier) (s : State) :
    (s.startCall r k tier).dueForOffer = s.dueForOffer := by
  have hview : (s.startCall r k tier).view = s.view.update k (Entry.placeOwn (r.key s.time s.address) tier s.solo) := by
    simp only [State.startCall, State.trySeize_view, State.requestClock_view]
    rfl
  have hwired : (s.startCall r k tier).view.anyWired = s.view.anyWired := by
    rw [Bool.eq_iff_iff, LineView.anyWired_iff, LineView.anyWired_iff, hview]
    refine exists_congr fun j => ?_
    rw [LineView.get_update]
    split <;> rfl
  have hlatch : (s.startCall r k tier).clock.latch = s.clock.latch := by
    simp only [State.startCall, State.trySeize_clock, State.requestClock_clock, State.placeOn_clock]
    cases s.clock.state with
    | quiet => cases s.clock.latch <;> simp
    | warming => rfl
    | active => rfl
  have hallDead : (s.startCall r k tier).view.allDead = s.view.allDead := by rw [hview]; rfl
  funext x
  simp only [State.dueForOffer, State.cannotDial, State.canDial, hwired, hlatch, hallDead, State.startCall_time,
    State.startCall_loader]

/-- A claim just placed makes no record due that was not (R146). -/
theorem State.choose_offerable {s : State} (hn : s.offerable = none) : s.choose.offerable = none := by
  unfold State.choose
  split
  · next hi =>
    split
    · exact hn
    · next r hr =>
      split
      · next k tier _ =>
        have hsolo : (s.startCall r k tier).solo = s.solo :=
          State.solo_of_settled (State.startCall_settled r k tier s hi.1)
        unfold State.offerable at hn ⊢
        rw [State.startCall_carry, hsolo, State.startCall_loader]
        split at hn
        · next hopen =>
          rw [if_pos hopen]
          have hnone := firstOf_eq_none hn
          rw [List.filter_eq_nil_iff] at hnone
          have hqueue : (s.startCall r k tier).queue = s.queue.modify r.order fun x => { x with state := .inCall } := by
            simp [State.startCall]
          have hfilter : (s.startCall r k tier).queue.records.filter (s.startCall r k tier).dueForOffer = [] := by
            rw [List.filter_eq_nil_iff, State.startCall_dueForOffer, hqueue]
            intro x hx
            obtain ⟨y, hy, rfl⟩ := List.mem_map.mp hx
            dsimp only
            split
            · simp only [State.dueForOffer, Record.waiting]
              cases y.kind <;> simp
            · exact hnone y hy
          rw [State.firstDue, hfilter, firstOf]
        · next hclosed => rw [if_neg hclosed]
      · exact hn
  · exact hn

theorem State.makeOffer_of_none {s : State} (h : s.offerable = none) : s.makeOffer = s := by
  simp only [State.makeOffer, h]

/-- With no record due for an offer, an IDLE engine with a lead and a line for it places its claim (R100, R146). -/
theorem State.settle_placed {s : State} {r : Record} {k : LineId} {tier : Tier} (hcall : s.call = CallEngine.idle)
    (hf : s.loader.configFault = false) (hr : s.lead = some r)
    (hc : candidate s.view.entries s.solo r.cls = some (k, tier)) (hn : s.offerable = none) (before : State) :
    State.Placed r k tier s (before.settle s) := by
  have hsame := State.checkAccept_sameChoice before s
  have hnone : (before.checkAccept s).offerable = none := by
    rw [hsame.offerable (State.checkAccept_offer before s), hn]
  have hplaced := State.choose_placed (s := before.checkAccept s) (r := r) (k := k) (tier := tier) (by rw [hsame.call, hcall])
    (by rw [hsame.loader, hf]) (by rw [hsame.lead, hr]) (by rw [hsame.view, hsame.solo, hc])
  have hcontested : (before.checkAccept s).contested = false := by
    unfold State.contested
    rw [hnone]
    split
    · next hd => cases hd
    · rfl
  have hmade : (before.checkAccept s).chooseAndOffer = (before.checkAccept s).choose := by
    rw [State.chooseAndOffer, hcontested, if_neg (by simp), State.makeOffer_of_none (State.choose_offerable hnone)]
  rw [← hmade] at hplaced
  exact (hplaced.same hsame).frames (State.settleFrames_framesOnly before _)

end Sys2Proof.Machine

/-! ### Station time and the stored times (R27, R40, R47, R146, R147, R153) -/

namespace Sys2Proof.Machine

open Host

/-- The first of the records that meet a condition, in a queue whose admission orders tell its records apart (R26). -/
theorem AlertQueue.Sound.firstOf_filter {q : AlertQueue} (hs : q.Sound) (now : Nat) (p : Record → Bool) (r : Record) :
    firstOf now (q.records.filter p) = some r ↔
      (r ∈ q.records ∧ p r = true) ∧ ∀ x, x ∈ q.records ∧ p x = true → x ≠ r → precedes now r x = true := by
  have hfirst : ∀ f, f ∈ q.records → (∀ x ∈ q.records.filter p, precedes now x f = false) →
      ∀ x, x ∈ q.records ∧ p x = true → x ≠ f → precedes now f x = true := fun f hf hnone x hx hne =>
    precedes_of_not (mt (hs.eq_of_order hf hx.1).mp hne.symm) (hnone x (List.mem_filter.mpr hx))
  constructor
  · intro h
    obtain ⟨f, hf, hmem, hnone⟩ := firstOf_spec now (l := q.records.filter p) fun hnil => by simp [hnil, firstOf] at h
    obtain rfl := Option.some.inj (hf.symm.trans h)
    exact ⟨List.mem_filter.mp hmem, hfirst f (List.mem_filter.mp hmem).1 hnone⟩
  · rintro ⟨hr, hall⟩
    obtain ⟨f, hf, hmem, hnone⟩ := firstOf_spec now (l := q.records.filter p)
      (List.ne_nil_of_mem (List.mem_filter.mpr hr))
    rw [hf]
    by_contra hne
    have hfr : f ≠ r := fun h => hne (congrArg some h)
    exact absurd (hall f (List.mem_filter.mp hmem) hfr) (by simp [hnone r (List.mem_filter.mpr hr)])

theorem State.canDial_iff {s : State} : s.canDial = true ↔
    (∃ k, (s.entry k).wired = true) ∧ s.loader.settings.number1 ≠ [] ∧ s.clock.latch = false := by
  simp [State.canDial, LineView.anyWired_iff, State.entry, and_assoc]

theorem State.mayLead_iff {s : State} {r : Record} : s.mayLead r = true ↔ r.state = .waiting ∧ r.notBefore ≤ s.time ∧
    (s.solo = true → r.cls ≤ 2) ∧ (∃ k, (s.entry k).wired = true) ∧ s.loader.settings.number1 ≠ [] ∧
    s.clock.latch = false := by
  rw [← State.canDial_iff]
  cases hs : s.solo <;> simp [State.mayLead, State.mayCall, Record.waiting, hs, and_assoc]

theorem State.cannotDial_iff {s : State} : s.cannotDial = true ↔ (∀ k, (s.entry k).wired = false) ∨
    s.loader.settings.number1 = [] ∨ s.view.allDead = .passed ∨ s.clock.latch = true := by
  have hdial : s.canDial = false ↔ (∀ k, (s.entry k).wired = false) ∨ s.loader.settings.number1 = [] ∨
      s.clock.latch = true := by
    rw [← Bool.not_eq_true, State.canDial_iff]
    simp only [not_and_or, not_exists, Bool.not_eq_true, ne_eq, not_not, Bool.not_eq_false]
  rw [State.cannotDial, Bool.or_eq_true, Bool.not_eq_true', hdial, decide_eq_true_iff]
  tauto

theorem State.dueForOffer_iff {s : State} {r : Record} : s.dueForOffer r = true ↔ r.state = .waiting ∧
    (∃ o, r.kind = .own o ∧ o.nextOffer ≤ s.time) ∧
    (s.loader.settings.handOff ≤ r.attempts ∨ (∀ k, (s.entry k).wired = false) ∨ s.loader.settings.number1 = [] ∨
      s.view.allDead = .passed ∨ s.clock.latch = true) := by
  rw [← State.cannotDial_iff]
  cases hk : r.kind <;> simp [State.dueForOffer, Record.waiting, hk, and_assoc]

/-- Settles O29: the lead by its filter, the tick by the choice at its end. -/
theorem tickCompletes : Obligations.TickCompletes := by
  unfold Obligations.TickCompletes
  refine ⟨fun s r hs => ?_, fun s hin => ?_⟩
  · intro mayLead
    have hmay : ∀ x, x ∈ s.queue.records ∧ s.mayLead x = true ↔ mayLead x := fun x => and_congr_right fun _ => State.mayLead_iff
    rw [State.lead, hs.firstOf_filter]
    simp only [hmay]
  · intro ticked
    have hticked : ({ s with
        time := s.time + 1
        view := { s.view with entries := drainedEntries s.view.entries }
        zone := { s.zone with testTimer := s.zone.testTimer.map fun t => t - 1 } } : State) = ticked := by
      simp only [ticked, drainedEntries, occupancyAfter, decide_eq_true_eq]
    have hexec : exec .stationTimeTick s = .next (s.settleChoice ticked) := by
      rw [← hticked]
      exact if_neg (by simp [hin])
    exact ⟨_, hexec, State.settleChoice_settled s ticked, fun r k tier _ hcall hf hr hc =>
      State.settleChoice_placed (by exact hcall) (by exact hf) hr (by exact hc) s⟩

/-- An offer made for the first due record (R146, R147). -/
theorem State.makeOffer_eq {s : State} {r : Record} {o : OwnPart} (h : s.offerable = some r) (ho : r.kind = .own o) :
    s.makeOffer = { s with
      queue := s.queue.modify r.order fun x => { x with state := .offered s.time }
      carry := { s.carry with offer := some ⟨o.seq, composeKey r.cls (r.grade s.time) 1 s.address, .owed⟩ }
      rbc := s.rbc.owe (.offer o.seq (composeKey r.cls (r.grade s.time) 1 s.address)) } := by
  have hkey : r.key s.time s.address = composeKey r.cls (r.grade s.time) 1 s.address := by
    rw [Record.key, Record.originTerm, ho]
  simp only [State.makeOffer, h, ho, hkey]

/-- Settles O30: the first due record by its filter; the commands by the choice and the offer at the end of the step. -/
theorem storedTimesComplete : Obligations.StoredTimesComplete := by
  unfold Obligations.StoredTimesComplete
  refine ⟨fun s r k tier hs hnow hcall hf hr hc => ?_, fun s r hs => ?_, fun s r o hs hrest hr ho hnow => ?_,
    fun seq s r carrier since hr hstate hsince => ?_⟩
  · have hany : (s.queue.records.any fun x => decide (x.notBefore = s.time)) = true :=
      List.any_eq_true.mpr ⟨r, (State.lead_mem hr).1, decide_eq_true hnow⟩
    exact ⟨_, if_pos hany, State.settleChoice_settled s s, State.settleChoice_placed hcall hf hr hc s⟩
  · intro due
    have hdue : ∀ x, x ∈ s.queue.records ∧ s.dueForOffer x = true ↔ due x := fun x =>
      and_congr_right fun _ => State.dueForOffer_iff
    have hfirst : s.firstDue = some r ↔ due r ∧ ∀ x, due x → x ≠ r → precedes s.time r x = true := by
      rw [State.firstDue, hs.firstOf_filter]
      simp only [hdue]
    unfold State.offerable
    split
    · next hopen =>
      simp only [Bool.and_eq_true, Option.isNone_iff_eq_none, Bool.not_eq_true'] at hopen
      obtain ⟨⟨hnone, hsolo⟩, hfault⟩ := hopen
      simp only [hfirst, hnone, hsolo, hfault, true_and]
    · next hclosed =>
      simp only [Bool.and_eq_true, Option.isNone_iff_eq_none, Bool.not_eq_true', not_and] at hclosed
      constructor
      · intro h
        cases h
      · rintro ⟨hnone, hsolo, hfault, _⟩
        exact absurd hfault (hclosed ⟨hnone, hsolo⟩)
  · have hmem := (State.offerable_mem hr).1
    have hany : s.queue.records.any (offersNow s) = true :=
      List.any_eq_true.mpr ⟨r, hmem, by simp [offersNow, ho, hnow]⟩
    have hresting : s.Resting := hrest.imp_right .inr
    have hsettle : s.settle s = s.settleFrames s.makeOffer := by
      rw [hresting.settle, State.checkAccept_self]
    have hframes := State.settleFrames_framesOnly s s.makeOffer
    rw [← hsettle, State.makeOffer_eq hr ho] at hframes
    refine ⟨_, if_pos hany, State.settle_settled s s, ?_, ?_, ?_⟩
    · rw [hframes.sameQueue]
      exact modify_self hmem _
    · rw [hframes.sameOffer]
    · exact hframes.settled.owed _ rfl (owes_owe_self _ _)
  · have hlong : handedTooLong s.time r = true := by simp [handedTooLong, hstate, hsince]
    have hexec : exec (.carryTimeout seq) s =
        .next (s.settle { s with queue := s.queue.giveBack s.time r.order }) := by
      change execCarryTimeout seq s = _
      simp only [execCarryTimeout, hr, hlong, if_true]
    exact ⟨_, hexec, State.settle_settled s _⟩

end Sys2Proof.Machine

/-! ### Claims upon the view, the RELEASE, and the fast clock (R61 to R65, R104, R106, R112, R114, R115, R126, R161 to
R164) -/

namespace Sys2Proof.Machine

open Host

/-! #### The report of guard-done -/

/-- A claim that gets guard-done: with fast-ready held it seizes its line, else it waits for it (R126, R127). -/
theorem State.reportGuardDone_eq {s : State} {k : LineId} (hs : s.call.state = .claim) (hk : s.call.line = some k) :
    s.reportGuardDone = if s.call.fastReady then
      State.enterSeize k { s with call := { s.call with guardDone := true } }
    else { s with call := { s.call with guardDone := true } } := by
  rw [State.reportGuardDone, if_pos hs]
  split
  · next hf => exact State.trySeize_of hs rfl hf hk
  · next hf => exact State.trySeize_of_not (.inr (.inr (Bool.eq_false_iff.mpr hf)))

theorem State.trySeize_guardDone (s : State) : s.trySeize.call.guardDone = s.call.guardDone := by
  unfold State.trySeize
  split
  · split
    · rw [State.enterSeize_eq]
    · rfl
  · rfl

theorem State.reportGuardDone_guardDone {s : State} (h : s.call.state = .claim) :
    s.reportGuardDone.call.guardDone = true ∧ s.reportGuardDone.call.state ≠ .idle := by
  rw [State.reportGuardDone, if_pos h]
  exact ⟨State.trySeize_guardDone _, (State.trySeize_call _).2 (by simp [h])⟩

theorem State.reportGuardDone_of_not {s : State} (h : s.call.state ≠ .claim) : s.reportGuardDone = s := if_neg h

/-- The call of a claim that gets guard-done. -/
theorem State.reportGuardDone_call {s : State} {k : LineId} (hs : s.call.state = .claim) (hk : s.call.line = some k) :
    (s.call.fastReady = false → s.reportGuardDone.call = { s.call with guardDone := true }) ∧
    (s.call.fastReady = true → s.reportGuardDone.call = { s.call with
      guardDone := true
      state := .seize
      barge := (s.entry k).barge
      seize := s.call.seize.set k true
      hook := if (s.entry k).barge then s.call.hook else s.call.hook.set k true
      timer := some (if (s.entry k).barge then .bargeClearing else .dialToneWait)
      lineLost := if (s.entry k).barge then s.call.lineLost
        else decide ((s.entry k).sense = some .noBattery) }) := by
  rw [State.reportGuardDone_eq hs hk]
  refine ⟨fun hf => ?_, fun hf => ?_⟩
  · rw [if_neg (by simp [hf])]
  · rw [if_pos hf, State.enterSeize_eq]
    rfl

/-- The outputs of a claim that gets guard-done with fast-ready held, on a station that drove no line (R127). -/
theorem State.LineSound.seizes {s : State} (h : s.LineSound) {k : LineId} (hs : s.call.state = .claim) :
    (s.call.seize.set k true).get k = true ∧
    ∀ barge, (if barge = true then s.call.hook else s.call.hook.set k true).get k = !barge := by
  refine ⟨Four.get_set_same _ _ _, fun barge => ?_⟩
  cases barge with
  | false => simp
  | true => simpa using (h.undriven (by rw [hs]; rfl) k).1

/-- The own flag names the call's line (Table 7-3 Note 2). -/
theorem State.LineSound.ownLine {s : State} (h : s.LineSound) {k : LineId} (hk : s.call.line = some k) :
    s.view.ownLine = some k := by
  have hown : ∀ j, (s.view.get j).own = decide (j = k) := fun j => by
    have := h.own j
    rw [hk] at this
    rw [Bool.eq_iff_iff, decide_eq_true_iff]
    exact this.trans ⟨fun h => (Option.some.inj h).symm, fun h => congrArg some h.symm⟩
  simp only [LineView.ownLine, hown]
  cases k <;> decide

/-! #### The holder gone (R63, R112) -/

theorem Entry.clearHolder_promotes {e : Entry} {p : Pending} (hp : e.pending = some p) (hg : p.guardPassed = true) :
    e.clearHolder = { e with
      pending := none, holder := some ⟨p.addr, p.key⟩, onHookTimer := decide (e.sense = some .onHook) } := by
  simp only [Entry.clearHolder, hp, hg, if_true]
  rfl

theorem Entry.clearHolder_clears {e : Entry} (h : ∀ p, e.pending = some p → p.guardPassed = false) :
    e.clearHolder = { e with holder := none, onHookTimer := false } := by
  unfold Entry.clearHolder
  split
  · next p hp => rw [h p hp, if_neg (by simp)]
  · rfl

theorem Entry.clearHolder_own (e : Entry) : e.clearHolder.barge = e.barge ∧ e.clearHolder.sense = e.sense := by
  unfold Entry.clearHolder
  (repeat' split) <;> exact ⟨rfl, rfl⟩

/-- The station with one entry set. -/
def State.setEntry (k : LineId) (e : Entry) (s : State) : State :=
  { s with view := { s.view with entries := s.view.entries.set k e } }

theorem State.setEntry_entry (k : LineId) (e : Entry) (s : State) : (s.setEntry k e).entry k = e :=
  Four.get_set_same _ _ _

theorem State.update_eq_setEntry (k : LineId) (f : Entry → Entry) (s : State) :
    ({ s with view := s.view.update k f } : State) = s.setEntry k (f (s.entry k)) := rfl

theorem State.holderGone_quiet {k : LineId} {s : State} (h : (s.entry k).waitingOnHolder = false ∨ s.call.state ≠ .claim) :
    s.holderGone k = s.setEntry k (s.entry k).clearHolder := by
  rw [State.holderGone]
  split
  · next hw => exact State.reportGuardDone_of_not (h.resolve_left (by simp [hw]))
  · rfl

theorem State.holderGone_ready {k : LineId} {s : State} (h : (s.entry k).waitingOnHolder = true) :
    s.holderGone k = (s.setEntry k (s.entry k).clearHolder).reportGuardDone := if_pos h

theorem Entry.waitingOnHolder_iff {e : Entry} : e.waitingOnHolder = true ↔
    e.own = true ∧ e.ownGuardDone = true ∧ e.holder.isSome = true := by
  simp [Entry.waitingOnHolder, and_assoc]

/-- Settles O31: each timer changes one entry; a claim that waited on the holder then gets guard-done. -/
theorem peerTimersComplete : Obligations.PeerTimersComplete := by
  unfold Obligations.PeerTimersComplete
  refine ⟨fun k s p hp => ?_, fun k s hline ht => ?_⟩
  · intro promoted waits
    have hset := fun e => State.settle_settled s (s.setEntry k e)
    refine ⟨fun hg => ?_, fun hy => ⟨_, if_pos (by simp [yieldLimitRunning, hp, hy]), ?_⟩⟩
    · refine ⟨_, if_pos (by simp [guardRunning, hp, hg]), fun hnone => ?_, fun hsome => ?_⟩
      · have hmade : (s.entry k).passGuard = promoted := by
          simp only [Entry.passGuard, hp, hnone, Option.isNone_none, if_true]
          rfl
        rw [State.update_eq_setEntry, hmade]
        exact hset promoted
      · have hmade : (s.entry k).passGuard = waits := by
          simp only [Entry.passGuard, hp]
          rw [if_neg (by simpa [Option.isSome_iff_ne_none] using hsome)]
        rw [State.update_eq_setEntry, hmade]
        exact hset waits
    · have hmade : (s.entry k).passYieldLimit = promoted := by
        simp only [Entry.passYieldLimit, hp]
        rfl
      rw [State.update_eq_setEntry, hmade]
      exact hset promoted
  · have hset := State.settle_settled s (s.holderGone k)
    refine ⟨_, (s.entry k).clearHolder, if_pos ht, fun p hp hg => Entry.clearHolder_promotes hp hg, Entry.clearHolder_clears,
      fun h => ?_, fun hw hs => ?_⟩
    · rw [State.holderGone_quiet h] at hset ⊢
      exact hset
    · have hk : s.call.line = some k := (hline.own k).mp (Entry.waitingOnHolder_iff.mp hw).1
      rw [State.holderGone_ready hw] at hset ⊢
      obtain ⟨hdone, hnotIdle⟩ := State.reportGuardDone_guardDone (s := s.setEntry k (s.entry k).clearHolder) hs
      obtain ⟨hwaits, hseizes⟩ := State.reportGuardDone_call (s := s.setEntry k (s.entry k).clearHolder) hs hk
      obtain ⟨hcall, _, hview⟩ := hset.call hnotIdle
      obtain ⟨hseize, hhook⟩ := hline.seizes (k := k) hs
      refine ⟨?_, ?_, ?_, fun hf => ?_⟩
      · rw [hcall, hdone]
      · rw [hview, State.reportGuardDone_view]
        rfl
      · rw [hcall]
        cases hf : s.call.fastReady with
        | false => rw [hwaits hf]; exact hs
        | true => rw [hseizes hf]; rfl
      · rw [hcall, hseizes hf, State.setEntry_entry, (Entry.clearHolder_own _).1]
        exact ⟨hseize, hhook _⟩

/-- The commands that make a claim ready, with the entry that they leave (R104, R112). -/
theorem exec_ownGuardPasses {k : LineId} {s : State} (hown : s.view.ownLine = some k)
    (hguard : (s.entry k).ownGuard = .running) : exec .ownGuardPasses s = .next (s.settle
      (if (s.entry k).holder.isNone then (s.setEntry k (s.entry k).passOwnGuard).reportGuardDone
        else s.setEntry k (s.entry k).passOwnGuard)) := by
  change execOwnGuardPasses s = _
  simp only [execOwnGuardPasses, hown, hguard, if_true]
  rfl

theorem exec_yieldWaitExpiry {k : LineId} {s : State} (hown : s.view.ownLine = some k) (hs : s.call.state = .claim)
    (hwait : (s.entry k).waitingOnHolder = true) (hguard : (s.entry k).ownGuard = .passed) :
    exec .yieldWaitExpiry s = .next (s.settle (s.setEntry k (s.entry k).clearHolder).reportGuardDone) := by
  change execYieldWaitExpiry s = _
  rw [← State.holderGone_ready hwait, execYieldWaitExpiry, hown]
  exact if_pos ⟨hs, hwait, hguard⟩

/-- Settles O32: either command makes the claim ready on one changed entry. -/
theorem ownClaimBecomesReady : Obligations.OwnClaimBecomesReady := by
  unfold Obligations.OwnClaimBecomesReady
  intro k s hline hk hs
  have hown := hline.ownLine hk
  refine ⟨fun hguard hholder => ?_, fun c made hc => ?_⟩
  · have hset := State.settle_settled s (s.setEntry k (s.entry k).passOwnGuard)
    have hexec := exec_ownGuardPasses hown hguard
    rw [if_neg (by simpa [Option.isSome_iff_ne_none] using hholder)] at hexec
    exact ⟨_, hexec, (hset.call (by rw [State.setEntry, hs]; decide)).1, hset⟩
  · have hready : exec c s = .next (s.settle (s.setEntry k made).reportGuardDone) ∧ made.barge = (s.entry k).barge ∧
        made.sense = (s.entry k).sense := by
      rcases hc with ⟨rfl, hguard, hnone, rfl⟩ | ⟨rfl, hguard, hdone, hholder, hpending, rfl⟩
      · have hexec := exec_ownGuardPasses hown hguard
        rw [if_pos (by simp [hnone])] at hexec
        exact ⟨hexec, rfl, rfl⟩
      · have hwaiting : (s.entry k).waitingOnHolder = true :=
          Entry.waitingOnHolder_iff.mpr ⟨(hline.own k).mpr hk, hdone, hholder⟩
        have hexec := exec_yieldWaitExpiry hown hs hwaiting hguard
        rw [Entry.clearHolder_clears hpending] at hexec
        exact ⟨hexec, rfl, rfl⟩
    obtain ⟨hexec, hbarge, hsense⟩ := hready
    obtain ⟨hdone, hnotIdle⟩ := State.reportGuardDone_guardDone (s := s.setEntry k made) hs
    obtain ⟨hwaits, hseizes⟩ := State.reportGuardDone_call (s := s.setEntry k made) hs hk
    have hset := State.settle_settled s (s.setEntry k made).reportGuardDone
    obtain ⟨hcall, hclock, hview⟩ := hset.call hnotIdle
    refine ⟨_, hexec, ?_, fun hf => ?_, fun hf => ?_, hset.loader.trans (State.reportGuardDone_loader _),
      hset.time.trans (State.reportGuardDone_time _), hset.zone.trans (State.reportGuardDone_zone _),
      hset.tone.trans (State.reportGuardDone_tone _), hclock.trans (State.reportGuardDone_clock _),
      hset.records.trans (by rw [State.reportGuardDone_queue]; rfl)⟩
    · rw [hview, State.reportGuardDone_view]
      rfl
    · rw [hcall, hwaits hf]
      rfl
    · rw [hcall, hseizes hf, State.setEntry_entry, hbarge, hsense]
      rfl

/-! #### A RELEASE received (R114) -/

theorem exec_releaseReceived {value : BitVec 13} {payload : BitVec 16} {acked : Bool} {f : ReleaseFields} {s : State}
    (hhears : s.Hears value) (hread : readRelease value payload = some f) :
    exec (.releaseReceived value payload acked) s =
      .next (State.settle (s.heard (receivedFrame .release value payload) acked)
        ((s.heard (receivedFrame .release value payload) acked).takeRelease f)) := by
  change execReleaseReceived value payload s acked = _
  unfold execReleaseReceived
  rw [hread, State.receiveFrame_of_hears hhears]

theorem Entry.heldBy_iff {addr : Nat} {e : Entry} : e.heldBy addr = true ↔ ∃ h, e.holder = some h ∧ h.addr = addr := by
  unfold Entry.heldBy
  split
  · next h hh => simp [hh]
  · next hn => simp [hn]

theorem Entry.pendingOf_iff {addr : Nat} {e : Entry} : e.pendingOf addr = true ↔ ∃ p, e.pending = some p ∧ p.addr = addr := by
  unfold Entry.pendingOf
  split
  · next h hh => simp [hh]
  · next hn => simp [hn]

/-- What a RELEASE does to the view, whatever it reports to the call (R114). -/
theorem State.takeRelease_view {f : ReleaseFields} {s : State} (hw : (s.entry f.line).wired = true) :
    (s.takeRelease f).view = (s.setEntry f.line ((s.entry f.line).observeRelease f.addr)).view := by
  rw [State.takeRelease, if_neg (by simp [hw])]
  split
  · next hh =>
    rw [Entry.observeRelease, if_pos hh, State.holderGone]
    split
    · rw [State.reportGuardDone_view]; rfl
    · rfl
  · rfl

theorem State.takeRelease_quiet {f : ReleaseFields} {s : State} (hw : (s.entry f.line).wired = true)
    (h : (s.entry f.line).heldBy f.addr = false ∨ (s.entry f.line).waitingOnHolder = false ∨ s.call.state ≠ .claim) :
    s.takeRelease f = s.setEntry f.line ((s.entry f.line).observeRelease f.addr) := by
  rw [State.takeRelease, if_neg (by simp [hw])]
  split
  · next hh => rw [Entry.observeRelease, if_pos hh, State.holderGone_quiet (h.resolve_left (by simp [hh]))]
  · rfl

theorem State.takeRelease_ready {f : ReleaseFields} {s : State} (hw : (s.entry f.line).wired = true)
    (hh : (s.entry f.line).heldBy f.addr = true) (hwait : (s.entry f.line).waitingOnHolder = true) :
    s.takeRelease f = (s.setEntry f.line (s.entry f.line).clearHolder).reportGuardDone := by
  rw [State.takeRelease, if_neg (by simp [hw]), if_pos hh, State.holderGone_ready hwait]

/-- Settles O44: the entry by `Entry.observeRelease`, the call by the report of guard-done. -/
theorem releaseReceivedCompletes : Obligations.ReleaseReceivedCompletes := by
  unfold Obligations.ReleaseReceivedCompletes
  intro value payload acked f s hhears hread hw held heard
  have hheld : (s.entry f.line).heldBy f.addr = true ↔ held := Entry.heldBy_iff
  have hset := State.settle_settled heard (heard.takeRelease f)
  refine ⟨_, (s.entry f.line).observeRelease f.addr, exec_releaseReceived hhears hread, fun h p hp hg => ?_, fun h hp => ?_,
    fun h hp => ?_, fun h hp => ?_, ?_, fun h => ?_, fun h hwait hclaim => ?_⟩
  · rw [Entry.observeRelease, if_pos (hheld.mpr h), Entry.clearHolder_promotes hp hg]
  · rw [Entry.observeRelease, if_pos (hheld.mpr h), Entry.clearHolder_clears hp]
  · rw [Entry.observeRelease, if_neg (mt hheld.mp h), if_pos (Entry.pendingOf_iff.mpr hp)]
  · rw [Entry.observeRelease, if_neg (mt hheld.mp h), if_neg]
    intro hof
    obtain ⟨p, hsome, haddr⟩ := Entry.pendingOf_iff.mp hof
    exact hp p hsome haddr
  · have hview : (heard.takeRelease f).view = _ := State.takeRelease_view hw
    rw [hset.entries f.line, State.entry, hview]
    exact congrArg Entry.others (State.setEntry_entry f.line _ heard)
  · have hquiet : heard.takeRelease f = _ := State.takeRelease_quiet hw
      (h.imp_left fun hn => Bool.eq_false_iff.mpr (mt hheld.mp hn))
    exact (congrArg (State.Settled · (State.settle heard (heard.takeRelease f))) hquiet).mp hset
  · have hready : heard.takeRelease f = _ := State.takeRelease_ready hw (hheld.mpr h) hwait
    obtain ⟨hdone, hnotIdle⟩ := State.reportGuardDone_guardDone
      (s := heard.setEntry f.line (heard.entry f.line).clearHolder) hclaim
    rw [← hready] at hdone hnotIdle
    rw [(hset.call hnotIdle).1, hdone]

end Sys2Proof.Machine

/-! ### The fast clock (R115, R126, R161 to R164) -/

namespace Sys2Proof.Machine

open Host

/-! #### Fast-ready -/

theorem State.reportFastReady_waits {s : State} (hi : s.call.state ≠ .idle)
    (h : s.call.state ≠ .claim ∨ s.call.guardDone = false) :
    s.reportFastReady = { s with call := { s.call with fastReady := true } } := by
  rw [State.reportFastReady, if_neg hi]
  exact State.trySeize_of_not (h.imp_right .inl)

theorem State.reportFastReady_seizes {s : State} {k : LineId} (hs : s.call.state = .claim) (hg : s.call.guardDone = true)
    (hk : s.call.line = some k) :
    s.reportFastReady = State.enterSeize k { s with call := { s.call with fastReady := true } } := by
  rw [State.reportFastReady, if_neg (by simp [hs])]
  exact State.trySeize_of hs hg rfl hk

/-- A report of fast-ready moves the call alone. -/
theorem State.reportFastReady_call (s : State) : { s.reportFastReady with call := s.call } = s := by
  unfold State.reportFastReady State.trySeize
  split
  · rfl
  · split
    · split
      · rw [State.enterSeize_eq]
      · rfl
    · rfl

theorem oscillatorCheck_iff {hertz : Nat} :
    oscillatorCheck hertz = true ↔ 354374955 ≤ 100 * hertz ∧ 100 * hertz ≤ 361534045 := by
  rw [oscillatorCheck, within, decide_eq_true_iff]
  omega

/-! #### A claim abandoned with no re-choice (R102, R115) -/

/-- The own fields of an abandoned claim are clear, and no other entry is touched. -/
theorem State.dropClaim_entry (k j : LineId) (s : State) :
    (s.dropClaim k).entry j = if j = k then (s.entry j).others else s.entry j := by
  simp only [State.dropClaim, State.clearOwnFields, State.entry, State.cancel_view]
  exact LineView.get_update s.view j k Entry.clearOwn

theorem State.dropClaim_canDial (k : LineId) (s : State) : (s.dropClaim k).canDial = s.canDial := by
  have hwired : (s.dropClaim k).view.anyWired = s.view.anyWired := by
    rw [Bool.eq_iff_iff, LineView.anyWired_iff, LineView.anyWired_iff]
    refine exists_congr fun j => ?_
    have hj := State.dropClaim_entry k j s
    change ((s.dropClaim k).entry j).wired = true ↔ (s.entry j).wired = true
    rw [hj]
    split <;> rfl
  simp only [State.canDial, hwired, State.dropClaim_loader, State.dropClaim_clock]

theorem State.rechoose_of_cannotDial {s : State} (h : s.canDial = false) : s.rechoose = s.giveUpCall := by
  unfold State.rechoose
  split
  · rfl
  · rw [h, Bool.and_false]
    rfl

/-- No RELEASE goes or comes with an abandoned claim (R102). -/
theorem State.dropClaim_release (k j : LineId) (reason : Reason) (s : State) :
    (s.dropClaim k).rbc.owes (.release j reason) = s.rbc.owes (.release j reason) := by
  refine Bool.eq_iff_iff.mpr ⟨fun h => ?_, fun h => ?_⟩
  · exact State.cancel_owes _ _ _ (State.cancel_owes _ _ _ h)
  · exact owes_cancel rfl (owes_cancel rfl h)

/-- A lasting marker that the end of a step does not owe is owed after it exactly where it was before (R92). -/
theorem State.settle_owes {s : State} (before : State) {m : Marker} (hl : m.lasting = true) (ha : m.addedAtEnd = false) :
    (before.settle s).rbc.owes m = s.rbc.owes m :=
  Bool.eq_iff_iff.mpr ⟨(State.settle_closed before s).owesOnly m ha, (State.settle_settled before s).owed m hl⟩

/-- The claim abandoned by the failure of its clock: the engine IDLE, and a RELEASE owed where its CLAIM has ended. -/
theorem State.abandonForClock_eq {s : State} (k : LineId) (h : s.canDial = false) : s.abandonForClock k =
    if (s.entry k).ownGuard = .absent then (s.dropClaim k).giveUpCall
    else ((s.dropClaim k).giveUpCall).oweRelease k .abandoned := by
  have hgiven : s.abandonInClaim k = (s.dropClaim k).giveUpCall :=
    State.rechoose_of_cannotDial ((State.dropClaim_canDial k s).trans h)
  rw [State.abandonForClock, hgiven]

/-- What such a claim leaves: an engine that places no other. -/
theorem State.abandonForClock_spec {s : State} (k : LineId) (h : s.canDial = false) :
    (s.abandonForClock k).call = CallEngine.idle ∧
    (s.abandonForClock k).clock = { s.clock with releaseTimer := true } ∧
    ((s.abandonForClock k).entry k).own = false ∧ (s.abandonForClock k).queue.NoneInCall ∧
    (s.abandonForClock k).Resting := by
  have hentry : ((s.dropClaim k).entry k).own = false := by
    rw [State.dropClaim_entry, if_pos rfl]
    rfl
  have hclock : (s.dropClaim k).giveUpCall.clock = { s.clock with releaseTimer := true } := by
    simp only [State.giveUpCall, State.enterIdle, State.dropClaim_clock]
  have hcannot : (s.dropClaim k).giveUpCall.canDial = false := (State.dropClaim_canDial k s).trans h
  have hlead : ∀ t : State, t.canDial = false → t.Resting := fun t ht =>
    .inr (.inr fun l hl => absurd ((State.lead_of_cannotDial ht).symm.trans hl) (by simp))
  rw [State.abandonForClock_eq k h]
  split
  · exact ⟨rfl, hclock, hentry, giveBackAll_noneInCall _ _, hlead _ hcannot⟩
  · exact ⟨rfl, hclock, hentry, giveBackAll_noneInCall _ _, hlead _ hcannot⟩

theorem State.clockFailed_canDial (s : State) : s.clockFailed.canDial = false := by
  simp [State.canDial, State.clockFailed]

/-- Settles O54: fast-ready by the report, the failure by the latch, which leaves no lead to be had. -/
theorem fastClockCompletes : Obligations.FastClockCompletes := by
  unfold Obligations.FastClockCompletes
  refine ⟨fun s hertz c hline hw hc => ?_, fun s hertz hw ht hout => ?_, fun s hw ht => ?_, fun s hline hw => ?_,
    fun s hr => ⟨fun ha => ?_, fun ha => ?_⟩⟩
  · have hexec : exec c s = .next s.clockReady := by
      rcases hc with ⟨rfl, ht, hlo, hhi⟩ | ⟨rfl, ht⟩
      · exact (if_pos ⟨hw, ht⟩).trans (if_pos (oscillatorCheck_iff.mpr ⟨hlo, hhi⟩))
      · exact (if_pos hw).trans (if_pos ht)
    have hcall : ({ s.clockReady with call := s.call } : State) = { s with
        clock := { s.clock with state := .active, warmTimer := .absent, steady := true } } :=
      State.reportFastReady_call { s with
        clock := { s.clock with state := .active, warmTimer := .absent, steady := true } }
    refine ⟨_, hexec, ?_, ?_, fun hi => ?_, fun hi hn => ?_, fun k hs hg hk => ?_⟩
    · exact congrArg (fun t : State => { t with clock := s.clock }) hcall
    · exact congrArg State.clock hcall
    · rw [State.clockReady, State.reportFastReady, if_pos (by exact hi)]
    · rw [State.clockReady, State.reportFastReady_waits (by exact hi) (by exact hn)]
    · obtain ⟨hseize, hhook⟩ := hline.seizes (k := k) hs
      have hready : s.clockReady = _ := State.reportFastReady_seizes (s := { s with
        clock := { s.clock with state := .active, warmTimer := .absent, steady := true } }) hs hg hk
      rw [hready, State.enterSeize_eq]
      exact ⟨rfl, hseize, hhook _⟩
  · refine (if_pos ⟨hw, ht⟩).trans (if_neg fun hcheck => ?_)
    have := oscillatorCheck_iff.mp hcheck
    omega
  · exact (if_pos hw).trans (if_neg ht)
  · by_cases hs : s.call.state = .claim
    · cases hk : s.call.line with
      | none => exact absurd (hline.idle.mpr hk) (by simp [hs])
      | some k =>
        have hexec : exec .fastClockFail s = .next (s.settle (s.clockFailed.abandonForClock k)) := by
          change execFastClockFail s = _
          simp only [execFastClockFail, hw, hs, hk, if_true]
        obtain ⟨hcall, hclock, hown, hnone, hresting⟩ := State.abandonForClock_spec k s.clockFailed_canDial
        obtain ⟨hcall', hclock', hview⟩ := hresting.settle_same s
        have howes := State.abandonForClock_eq k s.clockFailed_canDial
        refine ⟨_, hexec, ?_, fun hn => absurd hs hn, fun j _ hj => ?_⟩
        · rw [hclock', hclock, hs]
          rfl
        · obtain rfl := Option.some.inj hj
          refine ⟨hcall'.trans hcall, ?_, hresting.settle_noneInCall s hnone, fun hguard => ?_, fun hguard reason => ?_⟩
          · rw [State.entry, hview]
            exact hown
          · rw [State.settle_owes s rfl rfl, howes, if_neg (by exact hguard)]
            exact owes_oweRelease k .abandoned _
          · rw [State.settle_owes s rfl rfl, howes, if_pos (by exact hguard)]
            exact State.dropClaim_release k k reason s.clockFailed
    · have hexec : exec .fastClockFail s = .next (s.settle s.clockFailed) := by
        change execFastClockFail s = _
        simp only [execFastClockFail, hw, if_true]
        split
        · next h _ => exact absurd h hs
        · rfl
      have hclock : (s.settle s.clockFailed).clock = s.clockFailed.clock := by
        by_cases hi : s.call.state = .idle
        · have hresting : s.clockFailed.Resting := .inr (.inr fun l hl =>
            absurd ((State.lead_of_cannotDial s.clockFailed_canDial).symm.trans hl) (by simp))
          exact (hresting.settle_same s).2.1
        · exact ((State.settle_settled s s.clockFailed).call hi).2.1
      refine ⟨_, hexec, ?_, fun _ => ?_, fun k hc => absurd hc hs⟩
      · rw [hclock, decide_eq_false hs]
        rfl
      · rw [hclock]
        exact State.settle_settled s s.clockFailed
  · exact (if_pos hr).trans (if_pos ha)
  · exact (if_pos hr).trans (if_neg ha)

end Sys2Proof.Machine

/-! ### Frames received: the ones applied nowhere (R87, R96, R174) -/

namespace Sys2Proof.Machine

open Host

section
variable {α : Type} {f : Frame} {acked : Bool} {s : State}

/-- A frame of this station's own address latches the clash and is delivered to no block (R96, R174). -/
theorem State.receiveFrame_clash (hr : s.rbc.receiving = true) (hs : s.rbc.stuck = false) (ha : s.address ≠ 0)
    (hc : senderOf f.value = s.address) (fields : Option α) (take : α → State → State) :
    s.receiveFrame f acked fields take =
      s.settleFrames { s.heard f acked with ind := { s.ind with addressClash := true } } :=
  (if_pos (by simp [hr, hs])).trans (if_pos ⟨ha, hc⟩)

/-- A frame with no field in range is delivered to no block (R96). -/
theorem State.receiveFrame_unread {value : BitVec 13} (h : s.Hears value) (hf : f.value = value)
    (take : α → State → State) : s.receiveFrame f acked none take = s.heard f acked := by
  obtain ⟨hreceiving, hstuck, hclash⟩ := h
  refine (if_pos (by simp [hreceiving, hstuck])).trans (if_neg ?_)
  rintro ⟨haddress, hsender⟩
  rw [hf] at hsender
  exact hclash.elim haddress fun hother => hother hsender

end

/-! #### The ranges of Table 5-5 -/

theorem LineId.ofIndex_of_gt {n : Nat} (h : 3 < n) : LineId.ofIndex n = none := by
  match n, h with
  | n + 4, _ => rfl

theorem plainValue_of_not {value : BitVec 13} (h : senderOf value = 0 ∨ 15 < value.toNat) : plainValue value = false := by
  rw [plainValue, decide_eq_false_iff_not]
  omega

theorem accountDecimal_of_digit {account : BitVec 24} {i : Nat} (hi : i < 6) (h : 9 < accountDigit account i) :
    accountDecimal account = false := by
  rw [← Bool.not_eq_true, accountDecimal, List.all_eq_true]
  intro hall
  have := hall _ (List.mem_map.mpr ⟨i, List.mem_range.mpr hi, rfl⟩)
  rw [decide_eq_true_iff] at this
  omega

theorem reasonOf_of_not {n : Nat} (h : n ∉ [1, 2, 3, 4]) : reasonOf n = none := by
  match n, h with
  | 0, _ => rfl
  | n + 5, _ => rfl

theorem resultOf_of_not {n : Nat} (h : n ∉ [1, 2]) : resultOf n = none := by
  match n, h with
  | 0, _ => rfl
  | n + 3, _ => rfl

theorem qualifierOf_of_not {n : Nat} (h : n ∉ [1, 2, 3]) : qualifierOf n = none := by
  match n, h with
  | 0, _ => rfl
  | n + 4, _ => rfl

theorem readClaim_of_not {value : BitVec 13} {p : BitVec 8}
    (h : senderOf value = 0 ∨ 7168 ≤ value.toNat ∨ 3 < payloadByte p 0 % 16) : readClaim value p = none := by
  unfold readClaim
  split
  · next k hk =>
    refine if_neg fun hin => ?_
    rcases h with h | h | h
    · exact hin.1 h
    · omega
    · exact absurd (hk.symm.trans (LineId.ofIndex_of_gt h)) (by simp)
  · rfl

theorem readObject_of_not {value : BitVec 13} {p : BitVec 16}
    (h : senderOf value = 0 ∨ 7168 ≤ value.toNat ∨ 3 < payloadByte p 0 % 16 ∨ payloadByte p 1 ∉ [1, 2]) :
    readObject value p = none := by
  unfold readObject
  split
  · next k hk =>
    refine if_neg fun hin => ?_
    rcases h with h | h | h | h
    · exact hin.1 h
    · omega
    · exact absurd (hk.symm.trans (LineId.ofIndex_of_gt h)) (by simp)
    · exact h (by simpa using hin.2.2)
  · rfl

theorem readRelease_of_not {value : BitVec 13} {p : BitVec 16} (h : senderOf value = 0 ∨ 15 < value.toNat ∨
    3 < payloadByte p 0 % 16 ∨ payloadByte p 1 ∉ [1, 2, 3, 4]) : readRelease value p = none := by
  unfold readRelease
  split
  · next k r hk hr =>
    refine if_neg fun hin => ?_
    rcases h with h | h | h | h
    · exact absurd hin (by simp [plainValue_of_not (.inl h)])
    · exact absurd hin (by simp [plainValue_of_not (.inr h)])
    · exact absurd (hk.symm.trans (LineId.ofIndex_of_gt h)) (by simp)
    · exact absurd (hr.symm.trans (reasonOf_of_not h)) (by simp)
  · rfl

theorem readOffer_of_not {value : BitVec 13} {p : BitVec 8} (h : senderOf value = 0 ∨ 7168 ≤ value.toNat) :
    readOffer value p = none := if_neg (by omega)

theorem readAccept_of_not {value : BitVec 13} {p : BitVec 16}
    (h : senderOf value = 0 ∨ 1023 < value.toNat ∨ payloadByte p 0 % 16 = 0) : readAccept value p = none :=
  if_neg (by omega)

theorem readCarry_of_not {value : BitVec 13} {p : BitVec 72} (h : senderOf value = 0 ∨ 15 < value.toNat ∨
    payloadByte p 0 % 16 = 0 ∨ (∃ i, i < 6 ∧ 9 < accountDigit (carryAccount p) i) ∨ 6 < payloadByte p 5 / 16 ∨
    payloadByte p 5 % 16 ∉ [1, 2, 3] ∨ payloadByte p 6 = 0 ∨ 99 < payloadByte p 6 ∨ 9 < payloadByte p 7 ∨
    31 < payloadByte p 8) : readCarry value p = none := by
  unfold readCarry
  split
  · next q hq =>
    refine if_neg ?_
    rintro ⟨hplain, hacceptor, haccount, hcls, hlo, hhi, hrep, hgrade⟩
    rcases h with h | h | h | ⟨i, hi, h⟩ | h | h | h | h | h | h
    · exact absurd hplain (by simp [plainValue_of_not (.inl h)])
    · exact absurd hplain (by simp [plainValue_of_not (.inr h)])
    · exact hacceptor h
    · exact absurd haccount (by simp [accountDecimal_of_digit hi h])
    · omega
    · exact absurd (hq.symm.trans (qualifierOf_of_not h)) (by simp)
    · omega
    · omega
    · omega
    · omega
  · rfl

theorem readOutcome_of_not {value : BitVec 13} {p : BitVec 24} (h : senderOf value = 0 ∨ 15 < value.toNat ∨
    payloadByte p 0 % 16 = 0 ∨ payloadByte p 2 ∉ [1, 2]) : readOutcome value p = none := by
  unfold readOutcome
  split
  · next r hr =>
    refine if_neg ?_
    rintro ⟨hplain, horigin⟩
    rcases h with h | h | h | h
    · exact absurd hplain (by simp [plainValue_of_not (.inl h)])
    · exact absurd hplain (by simp [plainValue_of_not (.inr h)])
    · exact horigin h
    · exact absurd (hr.symm.trans (resultOf_of_not h)) (by simp)
  · rfl

theorem readState_of_not {value : BitVec 13} {p : BitVec 32} (h : senderOf value = 0 ∨ 15 < value.toNat ∨
    24 < payloadByte p 1 ∨ 8 < payloadByte p 2 ∨ payloadByte p 1 < payloadByte p 2) : readState value p = none := by
  refine if_neg ?_
  rintro ⟨hplain, hcount, hcarried, hle⟩
  rcases h with h | h | h
  · exact absurd hplain (by simp [plainValue_of_not (.inl h)])
  · exact absurd hplain (by simp [plainValue_of_not (.inr h)])
  · omega

/-- Settles O38. -/
theorem framesAppliedNowhere : Obligations.FramesAppliedNowhere := by
  unfold Obligations.FramesAppliedNowhere
  refine ⟨fun value s hr hs ha hsender c f acked hc => ?_, fun value acked s hhears => ?_⟩
  · have hexec : exec c s = .next (s.settleFrames { s.heard f acked with ind := { s.ind with addressClash := true } }) := by
      rcases hc with ⟨p, rfl, rfl⟩ | ⟨p, rfl, rfl⟩ | ⟨p, rfl, rfl⟩ | ⟨p, rfl, rfl⟩ | ⟨p, rfl, rfl⟩ | ⟨p, rfl, rfl⟩ |
        ⟨p, rfl, rfl⟩ | ⟨p, rfl, rfl⟩
      all_goals exact congrArg Outcome.next (State.receiveFrame_clash hr hs ha hsender _ _)
    have hframes := State.settleFrames_framesOnly s { s.heard f acked with ind := { s.ind with addressClash := true } }
    exact ⟨_, hexec, hframes.settled.clash, hframes⟩
  · have hunread : ∀ {α : Type} {fields : Option α} (f : Frame) (take : α → State → State), f.value = value → fields = none →
        Outcome.next (s.receiveFrame f acked fields take) = (.next (s.heard f acked) : Outcome State Fault Refusal) :=
      fun f take hf hnone => by rw [hnone, State.receiveFrame_unread hhears hf]
    exact ⟨fun p h => hunread _ _ rfl (readClaim_of_not h), fun p h => hunread _ _ rfl (readObject_of_not h),
      fun p h => hunread _ _ rfl (readRelease_of_not h), fun p h => hunread _ _ rfl (readOffer_of_not h),
      fun p h => hunread _ _ rfl (readAccept_of_not h), fun p h => hunread _ _ rfl (readCarry_of_not h),
      fun p h => hunread _ _ rfl (readOutcome_of_not h), fun p h => hunread _ _ rfl (readState_of_not h)⟩

end Sys2Proof.Machine

/-! ### A claim abandoned in CLAIM and the choice taken afresh (R102, R103, R110, R117) -/

namespace Sys2Proof.Machine

open Host

/-- The station with its claim on a line abandoned, before the choice is taken afresh (R102). -/
structure State.Dropped (old : LineId) (s u : State) : Prop where
  call : u.call = { s.call with guardDone := false }
  queue : u.queue = s.queue
  time : u.time = s.time
  loader : u.loader = s.loader
  clock : u.clock = s.clock
  own : (u.entry old).own = false
  failures : (u.entry old).failures = (s.entry old).failures
  release : ∀ reason, u.rbc.owes (.release old reason) = true → s.rbc.owes (.release old reason) = true
  noClaim : s.rbc.sendingSlot = none → ∀ key barge, u.rbc.owes (.claim old key barge) = false

theorem State.dropClaim_dropped (k : LineId) (s : State) : State.Dropped k s (s.dropClaim k) where
  call := by simp [State.dropClaim]
  queue := s.dropClaim_queue k
  time := s.dropClaim_time k
  loader := s.dropClaim_loader k
  clock := s.dropClaim_clock k
  own := by rw [State.dropClaim_entry, if_pos rfl]; rfl
  failures := by rw [State.dropClaim_entry, if_pos rfl]; rfl
  release reason h := by rw [← State.dropClaim_release k k reason s]; exact h
  noClaim hs key barge := State.cancel_gone _ _ _ (by simp [Marker.claims]) (State.cancel_noSending _ _ hs)

/-- What a station has to send of a marker that the outcome list does not hold. -/
theorem State.toSend_eq_zero_iff {s : State} {m : Marker} (hm : ∀ origin seq result, m ≠ .outcome origin seq result) :
    s.toSend m = 0 ↔ s.rbc.owes m = false := by
  have hlist : s.toSend m = s.rbc.owed.count m + (s.rbc.slots.map Slot.marker).count m := by
    cases m <;> first
      | rfl
      | exact absurd rfl (hm _ _ _)
  rw [hlist, Nat.add_eq_zero_iff, List.count_eq_zero, List.count_eq_zero, ← Bool.not_eq_true, owes_iff, not_or]
  refine and_congr Iff.rfl (not_congr ?_)
  simp

/-- A call in progress makes the end of a step owe no CLAIM (R101). -/
theorem State.settle_noClaim {s : State} (before : State) (hi : s.call.state ≠ .idle) {k : LineId} {key : Nat} {barge : Bool}
    (h : s.rbc.owes (.claim k key barge) = false) : (before.settle s).rbc.owes (.claim k key barge) = false := by
  have hmore := (State.settle_settled before s).noMore (.claim k key barge)
  rw [State.owedAtEnd, if_neg fun h => hi h.1, (State.toSend_eq_zero_iff (by simp)).mpr h] at hmore
  exact (State.toSend_eq_zero_iff (by simp)).mp (Nat.le_zero.mp hmore)

namespace State.Dropped

variable {old : LineId} {s u : State}

theorem callLead (h : State.Dropped old s u) : u.callLead = s.callLead := by
  simp only [State.callLead, h.call, h.queue]

/-- The choice taken afresh for the same lead, with a line to be had (R101, R102, R116). -/
theorem rechosen (h : State.Dropped old s u) (hq : s.queue.Sound) {r : Record} (hr : s.callLead = some r)
    (hs : s.call.state = .claim) (hmay : u.mayCall r.cls = true) (hdial : u.canDial = true) {j : LineId} {tier : Tier}
    (hc : candidate u.view.entries u.solo r.cls = some (j, tier)) (before : State) :
    State.Rechosen old j tier r u.solo s (before.settle u.rechoose) := by
  have hmade : u.rechoose = (u.placeOn j tier r).trySeize := by
    have hlead := h.callLead.trans hr
    simp only [State.rechoose, hlead, hmay, hdial, hc, Bool.and_self, if_true]
  have hplacedCall : (u.placeOn j tier r).call = { s.call with line := some j, guardDone := u.solo } := by
    rw [State.placeOn, h.call]
  have hplacedState : (u.placeOn j tier r).call.state = .claim := by rw [hplacedCall]; exact hs
  have hcall : u.rechoose.call.state = (if u.solo = true ∧ s.call.fastReady = true then .seize else .claim) ∧
      u.rechoose.call.line = some j ∧ u.rechoose.call.lead = s.call.lead ∧ u.rechoose.call.inHand = s.call.inHand ∧
      u.rechoose.call.guardDone = u.solo ∧ u.rechoose.call.fastReady = s.call.fastReady := by
    rw [hmade]
    by_cases hready : u.solo = true ∧ s.call.fastReady = true
    · rw [State.trySeize_of (k := j) hplacedState (by rw [hplacedCall]; exact hready.1)
        (by rw [hplacedCall]; exact hready.2) (by rw [hplacedCall]), State.enterSeize_eq, hplacedCall, if_pos hready]
      exact ⟨rfl, rfl, rfl, rfl, rfl, rfl⟩
    · rw [State.trySeize_of_not, hplacedCall, if_neg hready]
      · exact ⟨hs, rfl, rfl, rfl, rfl, rfl⟩
      · rw [hplacedCall]
        simpa [imp_iff_not_or] using Or.inr (not_and.mp hready)
  obtain ⟨hstate, hline, hlead, hinHand, hguard, hfast⟩ := hcall
  have hnotIdle : u.rechoose.call.state ≠ .idle := by
    rw [hstate]
    split <;> decide
  have hview : u.rechoose.view = u.view.update j (Entry.placeOwn (r.key s.time s.address) tier u.solo) := by
    rw [hmade, State.trySeize_view, ← h.time, State.address, ← h.loader]
    rfl
  have hrbc : u.rechoose.rbc = if u.solo then u.rbc else
      u.rbc.owe (.claim j (r.key s.time s.address) (decide (tier = .office))) := by
    rw [hmade, State.trySeize_rbc, ← h.time, State.address, ← h.loader]
    rfl
  have hqueue : u.rechoose.queue = s.queue := by
    rw [hmade, State.trySeize_queue, State.placeOn_queue, h.queue]
  have hclock : u.rechoose.clock = s.clock := by
    rw [hmade, State.trySeize_clock, State.placeOn_clock, h.clock]
  obtain ⟨hcall', hclock', hview'⟩ := (State.settle_settled before u.rechoose).call hnotIdle
  have hentry : ∀ i, (before.settle u.rechoose).entry i =
      if i = j then (u.entry i).placeOwn (r.key s.time s.address) tier u.solo else u.entry i := fun i => by
    rw [State.entry, hview', hview]
    exact LineView.get_update _ _ _ _
  have hown : (before.settle u.rechoose).entry j = (u.entry j).placeOwn (r.key s.time s.address) tier u.solo := by
    rw [hentry, if_pos rfl]
  refine ⟨?_, ?_, ?_, ?_, ?_, ?_, fun hne => ?_, ?_, ?_, ?_, ?_, ?_, fun hsolo => ?_, fun hne hsending key barge => ?_,
    fun reason howes => ?_, fun hin hmem => ?_, hclock'.trans hclock⟩
  · rw [hcall', hstate]
  · rw [hcall', hline]
  · rw [hcall', hlead]
  · rw [hcall', hinHand]
  · rw [hcall', hguard]
  · rw [hcall', hfast]
  · rw [hentry, if_neg hne]
    exact h.own
  · rw [hown]; rfl
  · rw [hown]; rfl
  · rw [hown]; rfl
  · rw [hown]; rfl
  · rw [hown]; rfl
  · refine (State.settle_settled before u.rechoose).owed _ rfl ?_
    rw [hrbc, if_neg (by simp [hsolo])]
    exact owes_owe_self _ _
  · refine State.settle_noClaim before hnotIdle ?_
    have hgone := h.noClaim hsending key barge
    rw [hrbc]
    split
    · exact hgone
    · next hsolo =>
      have hother : (Marker.claim old key barge) ≠ .claim j (r.key s.time s.address) (decide (tier = .office)) := fun he =>
        hne.elim hsolo fun hj => hj (Marker.claim.inj he).1
      rw [← Bool.not_eq_true, owes_iff] at hgone ⊢
      simpa [Rbc.owe, hother] using hgone
  · rw [State.settle_owes before rfl rfl, hrbc] at howes
    refine h.release reason ?_
    split at howes
    · exact howes
    · rw [owes_iff] at howes ⊢
      simpa [Rbc.owe] using howes
  · refine (State.settle_closed before u.rechoose).records ?_ r ?_ (by rw [hin]; decide)
    · rw [hqueue]; exact hq.ordered.1
    · rw [hqueue]; exact hmem

end State.Dropped

/-! #### No line to be had -/

theorem lowestScore_none {v : Four Entry} {l : List LineId} (h : lowestScore v l = none) : l = [] := by
  cases l with
  | nil => rfl
  | cons k rest =>
    rw [lowestScore] at h
    split at h
    · cases h
    · split at h <;> cases h

theorem highestKey_none {v : Four Entry} {l : List LineId} (h : highestKey v l = none) : l = [] := by
  cases l with
  | nil => rfl
  | cons k rest =>
    rw [highestKey] at h
    split at h
    · cases h
    · split at h <;> cases h

theorem linesWhere_nil {p : Entry → Bool} {v : Four Entry} : linesWhere p v = [] ↔ ∀ k, p (v.get k) = false := by
  rw [List.eq_nil_iff_forall_not_mem]
  refine forall_congr' fun k => ?_
  rw [mem_linesWhere, Bool.not_eq_true]

/-- No line of any tier (Table 6-1). -/
theorem candidate_none_iff {v : Four Entry} {solo : Bool} {cls : Nat} : candidate v solo cls = none ↔
    (∀ k, ((v.get k).derived = .free → (v.get k).trouble = true)) ∧
    (∀ k, ((v.get k).derived = .office → cls ≤ 3 → (v.get k).trouble = true)) ∧
    (∀ k, ((v.get k).derived = .free → (v.get k).trouble = false)) ∧
    (solo = false → ∀ k, preemptable cls (v.get k) = false) := by
  have hlow : ∀ p, lowestScore v (linesWhere p v) = none ↔ ∀ k, p (v.get k) = false := fun p => by
    rw [← linesWhere_nil]
    exact ⟨lowestScore_none, fun h => by rw [h]; rfl⟩
  have hhigh : highestKey v (linesWhere (preemptable cls) v) = none ↔ ∀ k, preemptable cls (v.get k) = false := by
    rw [← linesWhere_nil]
    exact ⟨highestKey_none, fun h => by rw [h]; rfl⟩
  have hfree : lowestScore v (linesWhere (fun e => decide (e.derived = .free) && !e.trouble) v) = none ↔
      ∀ k, (v.get k).derived = .free → (v.get k).trouble = true := (hlow _).trans (by simp)
  have hoffice : lowestScore v (linesWhere (fun e => decide (e.derived = .office ∧ cls ≤ 3) && !e.trouble) v) = none ↔
      ∀ k, (v.get k).derived = .office → cls ≤ 3 → (v.get k).trouble = true := (hlow _).trans (by simp)
  have htroubled : lowestScore v (linesWhere (fun e => decide (e.derived = .free) && e.trouble) v) = none ↔
      ∀ k, (v.get k).derived = .free → (v.get k).trouble = false := (hlow _).trans (by simp)
  rw [← hfree, ← hoffice, ← htroubled, ← hhigh]
  unfold candidate
  split
  · next h => simp only [h, reduceCtorEq, false_and]
  · next h =>
    split
    · next h' => simp only [h, h', reduceCtorEq, false_and, and_false]
    · next h' =>
      split
      · next h'' => simp only [h, h', h'', reduceCtorEq, false_and, and_false]
      · next h'' =>
        cases solo with
        | true => simp only [h, h', h'', if_true, reduceCtorEq, false_implies, and_self]
        | false =>
          split
          · next hs => cases hs
          · split
            · next h4 => simp only [h, h', h'', h4, reduceCtorEq, forall_const, and_false]
            · next h4 => simp only [h, h', h'', h4, forall_const, and_self]

/-- A class of less urgency has no more lines to choose from (Table 6-1). -/
theorem candidate_none_of_zero {v : Four Entry} {solo : Bool} (h : candidate v solo 0 = none) (cls : Nat) :
    candidate v solo cls = none := by
  rw [candidate_none_iff] at h ⊢
  obtain ⟨hfree, hoffice, htroubled, hkeys⟩ := h
  refine ⟨hfree, fun k ho _ => hoffice k ho (Nat.zero_le _), htroubled, fun hs k => ?_⟩
  have hk := hkeys hs k
  unfold preemptable at hk ⊢
  rw [Bool.and_eq_false_iff] at hk ⊢
  refine hk.imp_right fun hk => ?_
  split at hk
  · next key hkey =>
    rw [decide_eq_false_iff_not] at hk ⊢
    omega
  · rfl

theorem State.resting_of_noLine {s : State} (h : candidate s.view.entries s.solo 0 = none) : s.Resting :=
  .inr (.inr fun _ _ => candidate_none_of_zero h _)

/-- The claim given up, with no line for any class. -/
theorem State.rechoose_of_noLine {s : State} (h : candidate s.view.entries s.solo 0 = none) : s.rechoose = s.giveUpCall := by
  unfold State.rechoose
  split
  · rfl
  · split
    · rw [candidate_none_of_zero h]
    · rfl

namespace State.Dropped

variable {old : LineId} {s u : State}

/-- A claim given up with nothing counted (R102). -/
theorem givenUp (h : State.Dropped old s u) (hq : s.queue.Sound) (hj : s.queue.NoJoinDue)
    (hc : candidate u.view.entries u.solo 0 = none) (before : State) :
    State.GivenUp old s (before.settle u.rechoose) ∧
    (before.settle u.rechoose).view = u.view ∧
    (s.rbc.sendingSlot = none → ∀ key barge, (before.settle u.rechoose).rbc.owes (.claim old key barge) = false) := by
  rw [State.rechoose_of_noLine hc]
  have hresting : u.giveUpCall.Resting := State.resting_of_noLine hc
  obtain ⟨hcall, _, hview⟩ := hresting.settle_same before
  have hset := State.settle_settled before u.giveUpCall
  have hview' : (before.settle u.giveUpCall).view = u.view := hview
  refine ⟨⟨hcall, ?_, hresting.settle_noneInCall before (giveBackAll_noneInCall _ _), ?_, ?_, fun reason howes => ?_⟩, hview',
    fun hs key barge => ?_⟩
  · rw [State.entry, hview']
    exact h.own
  · have hreturned : u.giveUpCall.queue = _ := giveBackAll_returned u.time u.queue (by rw [h.queue]; exact hq.ordered.1)
      (by rw [h.queue]; exact hj)
    rw [hset.records, hreturned, h.queue, List.map_map]
    rfl
  · rw [State.entry, hview']
    exact h.failures
  · rw [State.settle_owes before rfl rfl] at howes
    exact h.release reason howes
  · have hmore := hset.noMore (.claim old key barge)
    rw [State.owedAtEnd, if_neg fun h => h.2.1 (by rw [hcall]; rfl),
      (State.toSend_eq_zero_iff (s := u.giveUpCall) (by simp)).mpr (h.noClaim hs key barge)] at hmore
    exact (State.toSend_eq_zero_iff (by simp)).mp (Nat.le_zero.mp hmore)

end State.Dropped

end Sys2Proof.Machine

/-! ### Claims and objections received (R62, R87, R102, R103, R105, R107 to R111, R137) -/

namespace Sys2Proof.Machine

open Host

/-! #### A frame heard -/

theorem Rbc.endReception_solo (f : Frame) (acked : Bool) (b : Rbc) : (b.endReception f acked).solo = b.solo := by
  have hsame : (b.endReception f acked).txErrors = b.txErrors ∧ (b.endReception f acked).stuck = b.stuck := by
    simp only [Rbc.endReception, Rbc.lowerRx]
    split <;> exact ⟨rfl, rfl⟩
  rw [Rbc.solo, Rbc.solo, Rbc.busOff_congr hsame.1, hsame.2]

theorem State.heard_sameChoice (f : Frame) (acked : Bool) (s : State) : s.SameChoice (s.heard f acked) :=
  ⟨rfl, rfl, rfl, rfl, rfl, rfl, Rbc.endReception_solo f acked s.rbc⟩

theorem State.heard_owes (f : Frame) (acked : Bool) (s : State) (m : Marker) :
    (s.heard f acked).rbc.owes m = s.rbc.owes m := by
  obtain ⟨hslots, howed⟩ := Rbc.endReception_frames f acked s.rbc
  simp only [Rbc.owes, State.heard, hslots, howed]

theorem State.heard_noSending (f : Frame) (acked : Bool) (s : State) :
    (s.heard f acked).rbc.sendingSlot = s.rbc.sendingSlot := by
  obtain ⟨hslots, _⟩ := Rbc.endReception_frames f acked s.rbc
  simp only [Rbc.sendingSlot, State.heard, hslots]

theorem exec_claimReceived {value : BitVec 13} {payload : BitVec 8} {acked : Bool} {f : ClaimFields} {s : State}
    (hhears : s.Hears value) (hread : readClaim value payload = some f) :
    exec (.claimReceived value payload acked) s =
      .next (State.settle (s.heard (receivedFrame .claim value payload) acked)
        ((s.heard (receivedFrame .claim value payload) acked).takeClaim f)) := by
  change execClaimReceived value payload s acked = _
  unfold execClaimReceived
  rw [hread, State.receiveFrame_of_hears hhears]

/-! #### A CLAIM at an entry (R62, R105, Table 6-3) -/

/-- The pending claim on an entry stands against a CLAIM of another station that does not qualify. -/
def Entry.Stands (addr key : Nat) (e : Entry) : Prop :=
  ∃ p, e.pending = some p ∧ p.addr ≠ addr ∧ ¬ keyClass key + 2 ≤ keyClass p.key

theorem Entry.observeClaim_of_stands {addr key : Nat} {e : Entry} (h : e.Stands addr key) : e.observeClaim addr key = e := by
  obtain ⟨p, hp, haddr, hkey⟩ := h
  simp only [Entry.observeClaim, hp]
  rw [if_neg haddr, if_neg (mt qualifies_iff.mp hkey)]

theorem Entry.observeClaim_of_not {addr key : Nat} {e : Entry} (h : ¬ e.Stands addr key) :
    e.observeClaim addr key = e.record addr key := by
  unfold Entry.observeClaim
  split
  · rfl
  · next p hp =>
    split
    · rfl
    · next haddr =>
      split
      · rfl
      · next hkey => exact absurd ⟨p, hp, haddr, mt qualifies_iff.mpr hkey⟩ h

/-- What a CLAIM leaves of an entry, by Table 6-3. -/
theorem Entry.observeClaim_spec (addr key : Nat) (e : Entry) :
    (e.Stands addr key → e.observeClaim addr key = e) ∧
    (¬ e.Stands addr key → (∃ h, e.holder = some h ∧ h.addr = addr) → e.observeClaim addr key = { e with
      pending := some ⟨addr, key, false, false⟩, holder := none, onHookTimer := false }) ∧
    (¬ e.Stands addr key → (¬ ∃ h, e.holder = some h ∧ h.addr = addr) → e.observeClaim addr key = { e with
      pending := some ⟨addr, key, false, false⟩ }) := by
  refine ⟨Entry.observeClaim_of_stands, fun hs hh => ?_, fun hs hh => ?_⟩
  · rw [Entry.observeClaim_of_not hs, Entry.record, if_pos (Entry.heldBy_iff.mpr hh)]
    rfl
  · rw [Entry.observeClaim_of_not hs, Entry.record, if_neg (mt Entry.heldBy_iff.mp hh)]

theorem State.Settled.of_eq {u v t : State} (h : State.Settled u t) (e : u = v) : State.Settled v t := e ▸ h

theorem State.recordClaim_eq (f : ClaimFields) (s : State) :
    s.recordClaim f = s.setEntry f.line ((s.entry f.line).observeClaim f.addr f.key) := rfl

/-- Settles O39: an entry that is not this station's own takes the CLAIM by Table 6-3. -/
theorem observedClaimCompletes : Obligations.ObservedClaimCompletes := by
  unfold Obligations.ObservedClaimCompletes
  intro value payload acked f s hhears hread hw hnot stands itsHolder heard
  have htake : heard.takeClaim f = heard.setEntry f.line ((s.entry f.line).observeClaim f.addr f.key) := by
    have hown : ¬ ((heard.entry f.line).own && heard.defends) = true := by
      rw [Bool.and_eq_true]
      rintro ⟨ho, hd⟩
      rcases hnot with hnot | hnot
      · exact absurd ho (by rw [show (heard.entry f.line).own = false from hnot]; decide)
      · have hhangup : heard.call.state = .hangup := hnot
        simp only [State.defends, hhangup] at hd
        cases hd
    rw [State.takeClaim, if_neg (by rw [show (heard.entry f.line).wired = true from hw]; decide), if_neg hown]
    rfl
  have hset := State.settle_settled heard (heard.takeClaim f)
  obtain ⟨hstands, hholder, hnone⟩ := (s.entry f.line).observeClaim_spec f.addr f.key
  exact ⟨_, _, exec_claimReceived hhears hread, hset.of_eq htake, hstands, hholder, hnone⟩

/-! #### The own line contested past the placed phase (R107, R108, R111, R137) -/

/-- The call of the line answers for it. -/
theorem State.takeClaim_own {f : ClaimFields} {s : State} (hline : s.LineSound) (hk : s.call.line = some f.line)
    (hh : s.call.state ≠ .hangup) : s.takeClaim f =
      if s.call.state = .claim ∧ (s.entry f.line).placed then s.surrenderTo f else s.answerClaim f := by
  have hwired := hline.wired _ hk
  have hown := (hline.own _).mpr hk
  have hdefends : s.defends = true := by
    have hidle : s.call.state ≠ .idle := fun hi => absurd ((hline.idle.mp hi).symm.trans hk) (by simp)
    unfold State.defends
    cases hs : s.call.state <;> first
      | rfl
      | exact absurd hs hidle
      | exact absurd hs hh
  rw [State.takeClaim, if_neg (by simp [hwired]), if_pos (by simp [hown, hdefends])]

theorem State.takeYield_waits {s : State} (h : s.call.state = .send ∨
    s.call.state = .kissoff ∧ s.call.timer ≠ some .betweenMessages) : s.takeYield = s := by
  rcases h with h | ⟨h, ht⟩
  · simp only [State.takeYield, h]
  · simp only [State.takeYield, h, if_neg ht]

theorem State.takeYield_hangs {s : State} (h : s.call.state = .claim ∨ s.call.state = .seize ∨ s.call.state = .dial ∨
    s.call.state = .handshake ∨ s.call.state = .kissoff ∧ s.call.timer = some .betweenMessages) :
    s.takeYield = s.hangUp .preempted := by
  rcases h with h | h | h | h | ⟨h, ht⟩
  · simp only [State.takeYield, h]
  · simp only [State.takeYield, h]
  · simp only [State.takeYield, h]
  · simp only [State.takeYield, h]
  · simp only [State.takeYield, h, if_pos ht]

/-- A hang-up that no line caused leaves the entries but for their trouble flags (R68, R70). -/
theorem State.HungUp.entry_of {k : LineId} {o : CallOutcome} {s t : State} (h : State.HungUp k o s t)
    (ho : o.kind ≠ .lineCaused) (j : LineId) : { t.entry j with trouble := (s.entry j).trouble } = s.entry j := by
  have hfailures : (t.entry j).failures = (s.entry j).failures := by
    by_cases hj : j = k
    · rw [hj, h.failures, if_neg ho]
    · exact h.otherLines j hj
  have hentry := h.entries j
  rw [← hfailures] at hentry
  exact hentry

/-- Settles O40: objected to, or yielded to at the yield point of the call's state. -/
theorem contestedLineIsDefendedOrYielded : Obligations.ContestedLineIsDefendedOrYielded := by
  unfold Obligations.ContestedLineIsDefendedOrYielded
  intro value payload acked f key s hhears hline hread hk hh hkey hplaced hyield stands itsHolder heard
  have hidle : s.call.state ≠ .idle := fun hi => absurd ((hline.idle.mp hi).symm.trans hk) (by simp)
  have hheard : heard.LineSound := hline.same (.of_same ⟨rfl, rfl, rfl, rfl⟩)
  have hanswer : heard.takeClaim f = heard.answerClaim f := by
    rw [State.takeClaim_own hheard hk hh, if_neg]
    rintro ⟨hc, hp⟩
    exact absurd hp (by rw [show (heard.entry f.line).placed = false from hplaced hc]; decide)
  have hkeyed : (heard.entry f.line).ownKey.getD 0 = key := by
    rw [show (heard.entry f.line).ownKey = some key from hkey]
    rfl
  have hset := State.settle_settled heard (heard.takeClaim f)
  refine ⟨heard.settle (heard.takeClaim f), exec_claimReceived hhears hread, fun hq => ?_, fun hq => ?_⟩
  · have hmade : heard.takeClaim f = heard.oweObject f.line := by
      rw [hanswer, State.answerClaim, hkeyed, if_neg (mt qualifies_iff.mp hq)]
    have howed : heard.oweObject f.line = { heard with
        rbc := if s.rbc.owes (.object f.line) then heard.rbc else heard.rbc.owe (.object f.line) } := by
      rw [State.oweObject, State.heard_owes]
      split <;> rfl
    have hset' := hset.of_eq (hmade.trans howed)
    obtain ⟨hcall, _, hview⟩ := hset'.call hidle
    refine ⟨hcall, hview, hset'.owed _ rfl ?_, hset'⟩
    dsimp only
    split
    · next ho => exact (State.heard_owes _ _ _ _).trans ho
    · exact owes_owe_self _ _
  · obtain ⟨hstands, hholder, hnone⟩ := (s.entry f.line).observeClaim_spec f.addr f.key
    generalize he : (s.entry f.line).observeClaim f.addr f.key = e at hstands hholder hnone
    have hmade : heard.takeClaim f = State.takeYield { heard.setEntry f.line e with
        call := { s.call with yieldPending := true } } := by
      rw [hanswer, State.answerClaim, hkeyed, if_pos (qualifies_iff.mpr hq), State.recordClaim_eq, ← he]
      exact if_neg fun h => absurd (hyield.symm.trans h) (by decide)
    generalize hu : ({ heard.setEntry f.line e with call := { s.call with yieldPending := true } } : State) = u at hmade
    have hentry : u.entry f.line = e ∧ ∀ j, j ≠ f.line → u.entry j = s.entry j := by
      rw [← hu]
      exact ⟨State.setEntry_entry _ _ _, fun j hj => Four.get_set_other _ _ hj⟩
    have hcall : u.call = { s.call with yieldPending := true } := by rw [← hu]
    have htone : u.tone = s.tone := by rw [← hu]; rfl
    have hset' := hset.of_eq hmade
    generalize hexec : heard.settle (heard.takeClaim f) = t at hset'
    rw [hmade] at hexec
    have hwaits : u.call.state = .send ∨ u.call.state = .kissoff ∧ u.call.timer ≠ some .betweenMessages →
        State.Settled u t ∧ t.call = u.call ∧ t.view = u.view := fun h => by
      rw [State.takeYield_waits h] at hset'
      obtain ⟨hc, _, hv⟩ := hset'.call (by rw [hcall]; exact hidle)
      exact ⟨hset', hc, hv⟩
    have hhangs : u.call.state = .claim ∨ u.call.state = .seize ∨ u.call.state = .dial ∨ u.call.state = .handshake ∨
        u.call.state = .kissoff ∧ u.call.timer = some .betweenMessages → State.HungUp f.line .preempted u t := fun h => by
      rw [State.takeYield_hangs h] at hexec
      exact hexec ▸ State.settle_hungUp (by rw [hcall]; exact hk) _ _
    have hentries : ∀ j, { t.entry j with trouble := (u.entry j).trouble } = u.entry j := fun j => by
      by_cases hw : u.call.state = .send ∨ u.call.state = .kissoff ∧ u.call.timer ≠ some .betweenMessages
      · rw [State.entry, (hwaits hw).2.2]
        rfl
      · refine (hhangs ?_).entry_of (by decide) j
        rw [hcall] at hw ⊢
        cases hs : s.call.state <;> simp_all
    refine ⟨e, ?_, fun j hj => ?_, hstands, hholder, hnone, fun h => ?_, fun h => ?_⟩
    · have := hentries f.line
      rw [hentry.1] at this
      exact this
    · have := hentries j
      rw [hentry.2 j hj] at this
      exact this
    · obtain ⟨hs, hc, _⟩ := hwaits (by rw [hcall]; exact h)
      exact ⟨hc.trans hcall, hs.tone.trans htone⟩
    · have := hhangs (by rw [hcall]; exact h)
      rw [← hu] at this
      exact this

end Sys2Proof.Machine

/-! ### The own claim surrendered or objected to (R25, R102, R103, R109, R110) -/

namespace Sys2Proof.Machine

open Host

theorem State.SameChoice.callLead {s t : State} (h : s.SameChoice t) : t.callLead = s.callLead := by
  simp only [State.callLead, h.call, h.queue]

namespace State.Dropped

variable {old : LineId} {s u : State}

/-- What a frame heard before the claim is dropped changes no part of. -/
theorem of_heard {f : Frame} {acked : Bool} (h : State.Dropped old (s.heard f acked) u) : State.Dropped old s u where
  call := h.call
  queue := h.queue
  time := h.time
  loader := h.loader
  clock := h.clock
  own := h.own
  failures := h.failures
  release reason ho := by rw [← State.heard_owes f acked s]; exact h.release reason ho
  noClaim hs := h.noClaim (by rw [State.heard_noSending]; exact hs)

/-- The peers' part of the entry may change before the claim is dropped and after it. -/
theorem of_entry {e : Entry} (h : State.Dropped old (s.setEntry old e) u) (he : e.failures = (s.entry old).failures) :
    State.Dropped old s u where
  call := h.call
  queue := h.queue
  time := h.time
  loader := h.loader
  clock := h.clock
  own := h.own
  failures := by rw [h.failures, State.setEntry_entry, he]
  release := h.release
  noClaim := h.noClaim

theorem setEntry {e : Entry} (h : State.Dropped old s u) (ho : e.own = false)
    (he : e.failures = (s.entry old).failures) : State.Dropped old s (u.setEntry old e) where
  call := h.call
  queue := h.queue
  time := h.time
  loader := h.loader
  clock := h.clock
  own := by rw [State.setEntry_entry, ho]
  failures := by rw [State.setEntry_entry, he]
  release := h.release
  noClaim := h.noClaim

end State.Dropped

theorem State.KeepsBus.solo {s t : State} (h : s.KeepsBus t) : t.solo = s.solo := by
  have htx : t.rbc.txErrors = s.rbc.txErrors := (congrArg Rbc.txErrors h.wire :)
  have hstuck : t.rbc.stuck = s.rbc.stuck := (congrArg Rbc.stuck h.wire :)
  rw [State.solo, State.solo, Rbc.solo, Rbc.solo, Rbc.busOff_congr htx, hstuck]

theorem State.dropClaim_solo (k : LineId) (s : State) : (s.dropClaim k).solo = s.solo := (s.dropClaim_keepsBus k).solo

theorem State.canDial_congr {s t : State} (hw : ∀ j, (t.entry j).wired = (s.entry j).wired) (hl : t.loader = s.loader)
    (hc : t.clock.latch = s.clock.latch) : t.canDial = s.canDial := by
  have hwired : t.view.anyWired = s.view.anyWired := by
    rw [Bool.eq_iff_iff, LineView.anyWired_iff, LineView.anyWired_iff]
    exact exists_congr fun j => iff_of_eq (congrArg (· = true) (hw j))
  simp only [State.canDial, hwired, hl, hc]

/-- The choice taken afresh writes own fields alone (R66, R102). -/
theorem State.rechoose_others (s : State) (j : LineId) : (s.rechoose.entry j).others = (s.entry j).others := by
  have hgiven : (s.giveUpCall.entry j).others = (s.entry j).others := by simp only [State.entry, State.giveUpCall_view]
  unfold State.rechoose
  split
  · exact hgiven
  · split
    · split
      · next k tier _ =>
        simp only [State.entry, State.trySeize_view, State.placeOn]
        rw [LineView.get_update]
        split <;> rfl
      · exact hgiven
    · exact hgiven

/-- Where the record in the call joins no WAITING one of its report, no join is due as the call ends (R25). -/
theorem AlertQueue.noJoinDue_of {q : AlertQueue} {r : Record}
    (hr : 3 ≤ r.cls → ∀ w ∈ q.records, w ≠ r → w.waiting = true → r.sameReport w = false)
    (hone : ∀ x ∈ q.records, x.state = .inCall → x = r) : q.NoJoinDue := by
  intro x hx hin h3 w hw hne hstate
  obtain rfl := hone x hx hin
  rcases hstate with hwait | hcall
  · exact hr h3 w hw hne (decide_eq_true hwait)
  · exact absurd (hone w hw hcall) hne

/-- What an abandonment leaves, by whether a line is to be had. -/
theorem State.Dropped.completes {old : LineId} {s u : State} {r : Record} (h : State.Dropped old s u) (hq : s.queue.Sound)
    (hr : s.callLead = some r) (hs : s.call.state = .claim) (hsolo : u.solo = s.solo) (hdial : u.canDial = s.canDial)
    (before : State) :
    (∀ j tier, s.mayCall r.cls = true → s.canDial = true → candidate u.view.entries s.solo r.cls = some (j, tier) →
      State.Rechosen old j tier r s.solo s (before.settle u.rechoose)) ∧
    ((3 ≤ r.cls → ∀ w ∈ s.queue.records, w ≠ r → w.waiting = true → r.sameReport w = false) →
      (∀ x ∈ s.queue.records, x.state = .inCall → x = r) → candidate u.view.entries s.solo 0 = none →
      State.GivenUp old s (before.settle u.rechoose) ∧
      (s.rbc.sendingSlot = none → ∀ key barge, (before.settle u.rechoose).rbc.owes (.claim old key barge) = false)) := by
  refine ⟨fun j tier hmay hcan hc => ?_, fun hjoin hone hc => ?_⟩
  · have hmay' : u.mayCall r.cls = true := by rw [State.mayCall, hsolo]; exact hmay
    exact hsolo ▸ h.rechosen hq hr hs hmay' (hdial.trans hcan) (hsolo ▸ hc) before
  · obtain ⟨hgiven, _, hclaim⟩ := h.givenUp hq (AlertQueue.noJoinDue_of hjoin hone) (hsolo ▸ hc) before
    exact ⟨hgiven, hclaim⟩

/-- A CLAIM at an entry writes the peers' part alone (R62, R105). -/
theorem Entry.observeClaim_keeps (addr key : Nat) (e : Entry) : (e.observeClaim addr key).wired = e.wired ∧
    (e.observeClaim addr key).failures = e.failures ∧ (e.observeClaim addr key).own = e.own ∧
    (e.observeClaim addr key).others = e.others.observeClaim addr key := by
  obtain ⟨hstands, hheld, hfree⟩ := e.observeClaim_spec addr key
  obtain ⟨hstands', hheld', hfree'⟩ := e.others.observeClaim_spec addr key
  by_cases hs : e.Stands addr key
  · rw [hstands hs, hstands' hs]
    exact ⟨rfl, rfl, rfl, rfl⟩
  · by_cases hh : ∃ h, e.holder = some h ∧ h.addr = addr
    · rw [hheld hs hh, hheld' hs hh]
      exact ⟨rfl, rfl, rfl, rfl⟩
    · rw [hfree hs hh, hfree' hs hh]
      exact ⟨rfl, rfl, rfl, rfl⟩

theorem Entry.others_others (e : Entry) : e.others.others = e.others := rfl

/-- Settles O41: the claim dropped, the CLAIM recorded on the entry, the choice taken afresh. -/
theorem placedClaimIsSurrendered : Obligations.PlacedClaimIsSurrendered := by
  unfold Obligations.PlacedClaimIsSurrendered
  intro value payload acked f r s hhears hline hq hread hk hs hplaced hr recorded view
  generalize hheard : s.heard (receivedFrame .claim value payload) acked = heard
  have hsame : s.SameChoice heard := hheard ▸ State.heard_sameChoice _ _ _
  have hentry : heard.entry f.line = s.entry f.line := congrArg (·.get f.line) hsame.view
  have hexec := exec_claimReceived (acked := acked) hhears hread
  rw [hheard] at hexec
  have hrecorded : recorded.own = false ∧ recorded.failures = (s.entry f.line).failures ∧
      recorded.wired = (s.entry f.line).wired ∧ recorded.others = recorded := by
    obtain ⟨hw, hf, ho, hothers⟩ := (s.entry f.line).others.observeClaim_keeps f.addr f.key
    exact ⟨ho, hf, hw, hothers.trans (by rw [Entry.others_others])⟩
  have hdropped := State.dropClaim_dropped f.line heard
  generalize hu : (heard.dropClaim f.line).setEntry f.line recorded = u
  have hmade : heard.takeClaim f = u.rechoose := by
    have hheardLine : heard.LineSound := hline.same (.of_same ⟨hsame.loader, hsame.clock, hsame.call, by rw [hsame.view]⟩)
    have hdropEntry : (heard.dropClaim f.line).entry f.line = (s.entry f.line).others := by
      rw [State.dropClaim_entry, if_pos rfl, hentry]
    rw [State.takeClaim_own hheardLine (by rw [hsame.call, hk]) (by rw [hsame.call, hs]; decide),
      if_pos ⟨by rw [hsame.call, hs], by rw [hentry, hplaced]⟩, State.surrenderTo, State.recordClaim_eq, hdropEntry, ← hu]
  have hdrop : State.Dropped f.line s u := by
    have h := hdropped.setEntry (e := recorded) hrecorded.1 (by rw [hentry]; exact hrecorded.2.1)
    rw [hu, ← hheard] at h
    exact h.of_heard
  have hview : u.view.entries = view := by
    rw [← hu]
    refine Four.ext_get fun j => ?_
    by_cases hj : j = f.line
    · rw [hj]
      exact (State.setEntry_entry _ _ _).trans (Four.get_set_same _ _ _).symm
    · refine (Four.get_set_other _ _ hj).trans (Eq.trans ?_ (Four.get_set_other _ _ hj).symm)
      have hother := State.dropClaim_entry f.line j heard
      rw [if_neg hj] at hother
      exact hother.trans (congrArg (·.get j) hsame.view)
  have hsolo : u.solo = s.solo := by
    rw [← hu]
    exact (State.dropClaim_solo f.line heard).trans hsame.solo
  have hdial : u.canDial = s.canDial := by
    refine State.canDial_congr (fun j => ?_) hdrop.loader (by rw [hdrop.clock])
    change (u.view.entries.get j).wired = _
    rw [hview]
    by_cases hj : j = f.line
    · rw [hj, Four.get_set_same]
      exact hrecorded.2.2.1
    · rw [Four.get_set_other _ _ hj]
      rfl
  have hothers : ((heard.settle u.rechoose).entry f.line).others = recorded := by
    rw [(State.settle_settled heard u.rechoose).entries, State.rechoose_others, ← hu, State.setEntry_entry]
    exact hrecorded.2.2.2
  rw [hmade] at hexec
  obtain ⟨hrechosen, hgiven⟩ := hdrop.completes hq hr hs hsolo hdial heard
  refine ⟨_, hexec, hothers, fun hp => ?_, fun j tier hmay hcan hc => ?_, fun hjoin hone hc => ?_⟩
  · have hpending : recorded.pending = some ⟨f.addr, f.key, false, false⟩ := by
      have hnot : ¬ (s.entry f.line).others.Stands f.addr f.key := by
        rintro ⟨p, hsome, _⟩
        exact absurd (hp.symm.trans hsome) (by simp)
      obtain ⟨_, hheld, hfree⟩ := (s.entry f.line).others.observeClaim_spec f.addr f.key
      by_cases hh : ∃ h, (s.entry f.line).others.holder = some h ∧ h.addr = f.addr
      · exact congrArg Entry.pending (hheld hnot hh)
      · exact congrArg Entry.pending (hfree hnot hh)
    exact (congrArg Entry.pending hothers).trans hpending
  · exact hrechosen j tier hmay hcan (by rw [hview]; exact hc)
  · exact hgiven hjoin hone (by rw [hview]; exact hc)

/-- Settles O43: the view first, then the call by its state. -/
theorem objectReceivedCompletes : Obligations.ObjectReceivedCompletes := by
  unfold Obligations.ObjectReceivedCompletes
  intro value payload acked f s hhears hline hread hw objected heard viewed
  have htake : heard.takeObject f = if (s.entry f.line).own then viewed.takeObjection f.line else viewed :=
    if_neg (by rw [show (heard.entry f.line).wired = true from hw]; decide)
  have hset := State.settle_settled heard (heard.takeObject f)
  refine ⟨heard.settle (heard.takeObject f), exec_objectReceived hhears hread, fun h => ?_, fun ho hs hq r hr => ?_,
    fun ho hs => ?_⟩
  · have hmade : heard.takeObject f = viewed := by
      rw [htake]
      by_cases ho : (s.entry f.line).own = true
      · have hignored : viewed.takeObjection f.line = viewed := by
          rcases h with h | h | h | h
          · exact absurd ho (by simp [h])
          · have hv : viewed.call.state = .send := h
            simp only [State.takeObjection, hv]
          · have hv : viewed.call.state = .kissoff := h
            simp only [State.takeObjection, hv]
          · have hv : viewed.call.state = .hangup := h
            simp only [State.takeObjection, hv]
        rw [if_pos ho, hignored]
      · rw [if_neg ho]
    exact hset.of_eq hmade
  · intro left
    have hv : viewed.call.state = .claim := hs
    have hmade : heard.takeObject f = (viewed.dropClaim f.line).rechoose := by
      rw [htake, if_pos ho]
      simp only [State.takeObjection, hv]
      rfl
    have hviewed : viewed = heard.setEntry f.line objected := rfl
    have hdrop : State.Dropped f.line s (viewed.dropClaim f.line) := by
      have h := State.dropClaim_dropped f.line viewed
      rw [hviewed] at h ⊢
      exact (h.of_entry rfl).of_heard
    have hobjected : viewed.entry f.line = objected := State.setEntry_entry _ _ _
    have hview : (viewed.dropClaim f.line).view.entries = left := by
      refine Four.ext_get fun j => ?_
      have hj := State.dropClaim_entry f.line j viewed
      by_cases hjk : j = f.line
      · rw [if_pos hjk, hjk, hobjected] at hj
        rw [hjk]
        exact hj.trans (Four.get_set_same _ _ _).symm
      · rw [if_neg hjk] at hj
        exact hj.trans ((Four.get_set_other _ _ hjk).trans (Four.get_set_other _ _ hjk).symm)
    have hsolo : (viewed.dropClaim f.line).solo = s.solo :=
      (State.dropClaim_solo f.line viewed).trans (State.heard_sameChoice _ _ s).solo
    have hdial : (viewed.dropClaim f.line).canDial = s.canDial := by
      refine (State.dropClaim_canDial f.line viewed).trans (State.canDial_congr (fun j => ?_) rfl rfl)
      by_cases hjk : j = f.line
      · rw [hjk, hobjected]
      · rw [hviewed]
        exact congrArg Entry.wired (Four.get_set_other _ _ hjk)
    obtain ⟨hrechosen, hgiven⟩ := hdrop.completes hq hr hs hsolo hdial heard
    rw [hmade] at hset ⊢
    rw [hview] at hrechosen hgiven
    refine ⟨?_, hrechosen, fun hjoin hone hc => (hgiven hjoin hone hc).1⟩
    rw [hset.entries, State.rechoose_others, State.dropClaim_entry, if_pos rfl, hobjected]
    rfl
  · have hmade : heard.takeObject f = viewed.hangUp .abandoned := by
      rw [htake, if_pos ho]
      rcases hs with h | h | h
      · have hv : viewed.call.state = .seize := h
        simp only [State.takeObjection, hv]
      · have hv : viewed.call.state = .dial := h
        simp only [State.takeObjection, hv]
      · have hv : viewed.call.state = .handshake := h
        simp only [State.takeObjection, hv]
    rw [hmade]
    exact State.settle_hungUp (s := viewed) ((hline.own _).mp ho) _ _

end Sys2Proof.Machine

/-! ### A claim in progress at entry to solo mode (R94, R116, R117) -/

namespace Sys2Proof.Machine

open Host

/-- The station as it enters solo mode, before its claim is treated: the controller moved, no slot in transmission, every
RELEASE dropped. -/
structure State.EntersSolo (s u : State) : Prop where
  loader : u.loader = s.loader
  time : u.time = s.time
  queue : u.queue = s.queue
  view : u.view = s.view
  call : u.call = s.call
  clock : u.clock = s.clock
  solo : u.solo = true
  noSending : u.rbc.sendingSlot = none
  noRelease : ∀ k reason, u.rbc.owes (.release k reason) = false

theorem Rbc.losesAttempt_byTransmitter {kind : ErrorKind} {f : Frame} {read : List Bool} {b : Rbc}
    (h : b.losesAttempt kind f read = true) : kind.byTransmitter = true := by
  cases kind with
  | check =>
    unfold Rbc.losesAttempt at h
    split at h
    · simp at h
    · cases h
  | bit => rfl
  | form => rfl
  | ack => rfl

theorem Rbc.solo_eq_false {b : Rbc} : b.solo = false ↔ b.busOff = false ∧ b.stuck = false := Bool.or_eq_false_iff

theorem exec_stuckEntry_entersSolo {s : State} (hs : s.solo = false) (hj : s.rbc.join ≠ .absent) :
    ∃ u, exec .stuckEntry s = .next (s.settle u.enterSolo) ∧ s.EntersSolo u := by
  obtain ⟨_, hstuck⟩ := Rbc.solo_eq_false.mp hs
  have hguard : (s.rbc.joined && !s.rbc.stuck) = true := by simp [Rbc.joined, hj, hstuck]
  generalize hd : ({ s.endAttempt s.sendingUnacked with rbc := { (s.endAttempt s.sendingUnacked).rbc with
      stuck := true, receiving := false, dominantRun := 64, recessiveRun := 0, recovery := 0 } } : State) = d
  have hexec : exec .stuckEntry s = .next (s.settle d.dropReleases.enterSolo) := by
    rw [← hd]
    exact (if_pos hguard).trans (congrArg (fun u => Outcome.next (s.settle u)) (if_neg (by simp [hs])))
  have hnone : d.rbc.sendingSlot = none := by
    rw [← hd]
    exact s.endAttempt_noSending _
  refine ⟨d.dropReleases, hexec, ?_, ?_, ?_, ?_, ?_, ?_, ?_, d.dropReleases_framesFrom.noSending hnone,
    fun k reason => State.dropReleases_owes d rfl⟩
  · rw [← hd]; exact s.endAttempt_loader _
  · rw [← hd]; exact s.endAttempt_time _
  · rw [← hd]; exact s.endAttempt_queue _
  · rw [← hd]; exact s.endAttempt_view _
  · rw [← hd]; exact s.endAttempt_call _
  · rw [← hd]; exact s.endAttempt_clock _
  · rw [← hd]; exact Bool.or_true _

theorem exec_transmitError_entersSolo {s : State} {kind : ErrorKind} {read : List Bool} {echo : BitVec 8} {x : Slot}
    (hs : s.solo = false) (hx : s.rbc.sendingSlot = some x) (hk : kind ≠ .ack)
    (hloses : s.rbc.losesAttempt kind x.frame read = true) (h184 : 184 ≤ s.rbc.txErrors) :
    ∃ u, exec (.transmitError kind read echo) s = .next (s.settle u.enterSolo) ∧ s.EntersSolo u := by
  obtain ⟨hin, hstuck⟩ := Rbc.solo_eq_false.mp hs
  obtain ⟨suspend, hfailed⟩ := Rbc.failed_eq kind read echo s.rbc
  generalize hv : State.afterError kind x { s with rbc := s.rbc.failed kind read echo } = v
  have hended : v = State.endAttempt x.unacked { s with rbc := s.rbc.failed kind read echo } := by
    rw [← hv, State.afterError, if_neg hk]
  have hexec : exec (.transmitError kind read echo) s = .next (s.settle (s.enterBusOff v)) := by
    have hguard : (kind.byTransmitter && !s.rbc.stuck && s.rbc.losesAttempt kind x.frame read) = true := by
      simp [Rbc.losesAttempt_byTransmitter hloses, hstuck, hloses]
    change execTransmitError kind s read echo = _
    simp only [execTransmitError, hx, if_pos hguard, ← hv]
    rfl
  obtain ⟨hnone, _, _, _, _, hwire⟩ := State.afterError_spec hx kind read echo
  rw [hv] at hnone hwire
  have hbusOff : v.rbc.busOff = true := by
    have htx : v.rbc.txErrors = min 255 (s.rbc.txErrors + 8) := by
      calc v.rbc.txErrors = (s.rbc.failed kind read echo).txErrors := (congrArg Rbc.txErrors hwire :)
        _ = min 255 (s.rbc.txErrors + 8) := by rw [hfailed]; exact if_neg fun h => hk h.1
    rw [Rbc.busOff_iff, htx]
    omega
  rw [State.enterBusOff_entry hbusOff hin hstuck] at hexec
  refine ⟨_, hexec, ?_, ?_, ?_, ?_, ?_, ?_, ?_,
    (State.dropReleases_framesFrom _).noSending (by exact hnone), fun k reason => State.dropReleases_owes _ rfl⟩
  · rw [hended]; exact State.endAttempt_loader _ _
  · rw [hended]; exact State.endAttempt_time _ _
  · rw [hended]; exact State.endAttempt_queue _ _
  · rw [hended]; exact State.endAttempt_view _ _
  · rw [hended]; exact State.endAttempt_call _ _
  · rw [hended]; exact State.endAttempt_clock _ _
  · have hdropped : (State.dropReleases { v with rbc := { v.rbc with recovery := 0 } }).rbc.busOff = true :=
      (Rbc.busOff_congr rfl).trans hbusOff
    rw [State.solo, Rbc.solo, hdropped, Bool.true_or]

/-! #### The claim by its phase -/

/-- The lead is of class 0 to 2 and the line from tiers 1 to 3 (R117). -/
theorem State.soloAllows_iff {k : LineId} {s : State} : s.soloAllows k = true ↔
    ∃ r, s.callLead = some r ∧ r.cls ≤ 2 ∧ (s.entry k).tier ∈ [some .free, some .office, some .troubled] := by
  have hlow : ∀ t : Option Tier, lowTier t = true ↔ t ∈ [some .free, some .office, some .troubled] := fun t => by
    cases t with
    | none => simp [lowTier]
    | some t => cases t <;> simp [lowTier]
  unfold State.soloAllows
  split
  · next r hr => simp [hr, hlow]
  · next hn => simp [hn]

/-- A part of a step that leaves the call owes no CLAIM that was not owed (R101). -/
theorem State.Settled.noClaim {a b : State} (h : State.Settled a b) (hc : b.call = a.call) {k : LineId} {key : Nat}
    {barge : Bool} (hn : a.rbc.owes (.claim k key barge) = false) : b.rbc.owes (.claim k key barge) = false := by
  have hmore := h.noMore (.claim k key barge)
  rw [State.owedAtEnd, if_neg fun h => h.2.1 (by rw [hc]; exact h.1), (State.toSend_eq_zero_iff (by simp)).mpr hn] at hmore
  exact (State.toSend_eq_zero_iff (by simp)).mp (Nat.le_zero.mp hmore)

theorem State.choose_rbc_of_solo {s : State} (h : s.solo = true) : s.choose.rbc = s.rbc := by
  unfold State.choose
  split
  · split
    · rfl
    · split
      · simp only [State.startCall, State.trySeize_rbc, State.requestClock_rbc, State.placeOn]
        exact if_pos h
      · rfl
  · rfl

/-- In solo mode the end of a step owes no CLAIM (R116). -/
theorem State.settle_noClaim_solo {s : State} (hs : s.solo = true) (before : State) {k : LineId} {key : Nat} {barge : Bool}
    (hn : s.rbc.owes (.claim k key barge) = false) : (before.settle s).rbc.owes (.claim k key barge) = false := by
  have hsame := State.checkAccept_sameChoice before s
  have hchecked := (State.checkAccept_settled before s).noClaim hsame.call hn
  have hsolo := hsame.solo.trans hs
  have hoffer : ∀ t : State, t.rbc.owes (.claim k key barge) = false → t.makeOffer.rbc.owes (.claim k key barge) = false :=
    fun t ht => (State.makeOffer_settled t).noClaim t.makeOffer_call ht
  have hchosen : ∀ t : State, t.solo = true → t.rbc.owes (.claim k key barge) = false →
      t.choose.rbc.owes (.claim k key barge) = false := fun t hts ht => by rw [State.choose_rbc_of_solo hts]; exact ht
  have hboth : (before.checkAccept s).chooseAndOffer.rbc.owes (.claim k key barge) = false := by
    unfold State.chooseAndOffer
    dsimp only
    split
    · split
      · exact hchosen _ ((State.solo_of_settled (State.makeOffer_settled _)).trans hsolo) (hoffer _ hchecked)
      · exact hoffer _ (hchosen _ hsolo hchecked)
    · exact hoffer _ (hchosen _ hsolo hchecked)
  exact (State.settleFrames_framesOnly before _).settled.noClaim (State.settleFrames_framesOnly before _).sameCall hboth

/-- In solo mode the choice taken afresh owes nothing (R116). -/
theorem State.rechoose_rbc_of_solo {s : State} (h : s.solo = true) : s.rechoose.rbc = s.rbc := by
  unfold State.rechoose
  split
  · simp
  · split
    · split
      · rw [State.trySeize_rbc]
        exact if_pos h
      · simp
    · simp

/-! #### A queue of classes 3 to 6 stays one as its calls end (R12, R25) -/

/-- Every record is of class 3 to 6. -/
def AlertQueue.Unhurried (q : AlertQueue) : Prop := ∀ x ∈ q.records, 3 ≤ x.cls

namespace AlertQueue.Unhurried

variable {q : AlertQueue}

theorem remove (h : q.Unhurried) (order : Nat) : (q.remove order).Unhurried := fun x hx => h x (List.mem_filter.mp hx).1

theorem modify (h : q.Unhurried) (order : Nat) {f : Record → Record} (hf : ∀ x, (f x).cls = x.cls) :
    (q.modify order f).Unhurried := fun x hx => by
  obtain ⟨y, hy, rfl⟩ := List.mem_map.mp hx
  split
  · rw [hf]
    exact h y hy
  · exact h y hy

theorem create (h : q.Unhurried) (now : Nat) {e : Event} (he : 3 ≤ e.cls) : (q.create now e).Unhurried := fun x hx => by
  rcases List.mem_append.mp hx with hx | hx
  · exact h x hx
  · rw [List.mem_singleton.mp hx]
    exact he

theorem takeEvent (h : q.Unhurried) (now : Nat) {e : Event} (he : 3 ≤ e.cls) : (q.takeEvent now e).1.Unhurried := by
  have hnew : (q.createOrDisplace now e).Unhurried := by
    unfold AlertQueue.createOrDisplace
    split
    · exact h.create now he
    · split
      · exact (h.remove _).create now he
      · exact h
  unfold AlertQueue.takeEvent
  split
  · exact hnew
  · split
    · exact h.modify _ fun _ => rfl
    · split
      · split
        · exact (h.remove _).modify _ fun _ => rfl
        · exact hnew
      · exact hnew

theorem afterDeparture (h : q.Unhurried) (now : Nat) : (q.afterDeparture now).Unhurried := by
  unfold AlertQueue.afterDeparture
  split
  · exact h.takeEvent now (by decide)
  · exact h

theorem giveBack (h : q.Unhurried) (now order : Nat) : (q.giveBack now order).Unhurried := by
  unfold AlertQueue.giveBack
  split
  · exact h
  · split
    · exact h.modify _ fun _ => rfl
    · refine AlertQueue.Unhurried.afterDeparture ?_ now
      exact (h.remove _).modify _ fun _ => rfl

theorem giveBackAll (h : q.Unhurried) (now : Nat) : (q.giveBackAll now).Unhurried := by
  unfold AlertQueue.giveBackAll
  generalize q.inCall = l
  induction l generalizing q with
  | nil => exact h
  | cons r rest ih => exact ih (h.giveBack now r.order)

/-- In solo mode such a queue has no lead (R27). -/
theorem noLead {s : State} (h : s.queue.Unhurried) (hs : s.solo = true) : s.lead = none := by
  have hnone : s.queue.records.filter s.mayLead = [] := List.filter_eq_nil_iff.mpr fun x hx => by
    have hcls := h x hx
    have hcall : s.mayCall x.cls = false := by
      rw [State.mayCall, hs, decide_eq_false (by omega)]
      rfl
    simp [State.mayLead, hcall]
  rw [State.lead, hnone, firstOf]

end AlertQueue.Unhurried

/-! #### What each phase leaves -/

section
variable {s z : State} {k : LineId}

/-- A ready claim's call. -/
theorem State.reportGuardDone_ready (hs : z.call.state = .claim) (hk : z.call.line = some k) :
    z.reportGuardDone.call.line = some k ∧ z.reportGuardDone.call.lead = z.call.lead ∧
    z.reportGuardDone.call.guardDone = true ∧
    z.reportGuardDone.call.state = (if z.call.fastReady then .seize else .claim) := by
  obtain ⟨hwaits, hseizes⟩ := State.reportGuardDone_call hs hk
  cases hf : z.call.fastReady with
  | false =>
    rw [hwaits hf]
    exact ⟨hk, rfl, rfl, hs⟩
  | true =>
    rw [hseizes hf]
    exact ⟨hk, rfl, rfl, rfl⟩

/-- The claim treated, by its phase (R117). -/
theorem State.claimIntoSolo_placed (hs : z.call.state = .claim) (hk : z.call.line = some k)
    (hp : (z.entry k).placed = true) : z.claimIntoSolo = if z.soloAllows k then
      (State.cancel (Marker.claims k) (z.setEntry k { z.entry k with ownGuardDone := true })).reportGuardDone
    else z.abandonInClaim k := by
  simp only [State.claimIntoSolo, hs, hk, hp, if_true]
  rfl

theorem State.claimIntoSolo_guarding (hs : z.call.state = .claim) (hk : z.call.line = some k)
    (hg : (z.entry k).ownGuard = .running) : z.claimIntoSolo = if (z.entry k).holder.isNone then
      (z.setEntry k (z.entry k).passOwnGuard).reportGuardDone else z.setEntry k (z.entry k).passOwnGuard := by
  have hp : (z.entry k).placed = false := by simp [Entry.placed, hg]
  simp only [State.claimIntoSolo, hs, hk, hp, hg, if_true]
  rfl

theorem State.claimIntoSolo_same (hk : z.call.line = some k)
    (h : z.call.state ≠ .claim ∨ (z.entry k).placed = false ∧ (z.entry k).ownGuard ≠ .running) : z.claimIntoSolo = z := by
  unfold State.claimIntoSolo
  split
  · next j hs hj =>
    obtain ⟨hp, hg⟩ := h.resolve_left (not_not.mpr hs)
    obtain rfl := Option.some.inj (hk.symm.trans hj)
    rw [if_neg (by simp [hp]), if_neg hg]
  · rfl

end

/-- Settles O37. -/
theorem soloModeTreatsTheClaim : Obligations.SoloModeTreatsTheClaim := by
  unfold Obligations.SoloModeTreatsTheClaim
  intro c s k hline hq hsolo hk hc allowed cleared
  obtain ⟨u, hexec, hu⟩ : ∃ u, exec c s = .next (s.settle u.enterSolo) ∧ s.EntersSolo u := by
    rcases hc with ⟨rfl, hj⟩ | ⟨kind, read, echo, x, rfl, hx, hack, hloses, h184⟩
    · exact exec_stuckEntry_entersSolo hsolo hj
    · exact exec_transmitError_entersSolo hsolo hx hack hloses h184
  generalize hz : ({ u with zone := { u.zone with busTimer := true } } : State) = z at *
  have hz' : s.EntersSolo z := by
    obtain ⟨h1, h2, h3, h4, h5, h6, h7, h8, h9⟩ := hu
    rw [← hz]
    exact ⟨h1, h2, h3, h4, h5, h6, h7, h8, h9⟩
  have hmade : u.enterSolo = z.claimIntoSolo := by rw [← hz]; rfl
  obtain ⟨hloader, htime, hqueue, hview, hcall, hclock, hzsolo, hnone, hnoRelease⟩ := hz'
  have hidle : s.call.state ≠ .idle := fun hi => absurd ((hline.idle.mp hi).symm.trans hk) (by simp)
  have hentry : z.entry k = s.entry k := congrArg (·.get k) hview
  have hlead : z.callLead = s.callLead := by simp only [State.callLead, hcall, hqueue]
  have hset := State.settle_settled s z.claimIntoSolo
  have hmadeSolo : z.claimIntoSolo.solo = true := by
    rw [← hmade]
    exact (State.enterSolo_keepsBus u).solo.trans hu.solo
  rw [hmade] at hexec
  refine ⟨_, hexec, (State.solo_of_settled hset).trans hmadeSolo, fun hs hp => ?_, fun hs hg => ?_, fun h => ?_⟩
  · have htreated := State.claimIntoSolo_placed (by rw [hcall, hs]) (by rw [hcall, hk]) (by rw [hentry, hp])
    have hallowed : z.soloAllows k = true ↔ allowed := by rw [State.soloAllows_iff, hlead, hentry]
    have hdrop : State.Dropped k s (z.dropClaim k) := by
      obtain ⟨h1, h2, h3, h4, h5, h6, h7, h8, h9⟩ := State.dropClaim_dropped k z
      exact ⟨h1.trans (by rw [hcall]), h2.trans hqueue, h3.trans htime, h4.trans hloader, h5.trans hclock, h6,
        h7.trans (by rw [hentry]), fun reason h => absurd ((hnoRelease k reason).symm.trans (h8 reason h)) (by simp),
        fun _ => h9 hnone⟩
    have hdropSolo : (z.dropClaim k).solo = true := (State.dropClaim_solo k z).trans hzsolo
    have hcleared : (z.dropClaim k).view.entries = cleared := by
      refine Four.ext_get fun j => ?_
      have hj := State.dropClaim_entry k j z
      by_cases hjk : j = k
      · rw [if_pos hjk, hjk, hentry] at hj
        rw [hjk]
        exact hj.trans (Four.get_set_same _ _ _).symm
      · rw [if_neg hjk] at hj
        exact hj.trans ((congrArg (·.get j) hview).trans (Four.get_set_other _ _ hjk).symm)
    refine ⟨fun key barge => ?_, fun ha => ?_, fun r j tier hn hr h2 hcan hc => ?_, fun hn hnoLine => ?_⟩
    · refine State.settle_noClaim_solo hmadeSolo s ?_
      rw [htreated]
      split
      · rw [State.reportGuardDone_rbc]
        exact State.cancel_gone _ _ _ (by simp [Marker.claims]) hnone
      · rw [State.abandonInClaim, State.rechoose_rbc_of_solo hdropSolo]
        exact (State.dropClaim_dropped k z).noClaim hnone key barge
    · rw [if_pos (hallowed.mpr ha), hentry] at htreated
      obtain ⟨hline', hlead', hdone, hstate⟩ := State.reportGuardDone_ready (z := State.cancel (Marker.claims k)
        (z.setEntry k { s.entry k with ownGuardDone := true })) (k := k) (by rw [State.cancel_call]; exact hcall ▸ hs)
        (by rw [State.cancel_call]; exact hcall ▸ hk)
      rw [← htreated] at hline' hlead' hdone hstate
      have hmadeIdle : z.claimIntoSolo.call.state ≠ .idle := by
        rw [hstate]
        split <;> decide
      obtain ⟨hcall', hclock', hview'⟩ := hset.call hmadeIdle
      refine ⟨by rw [hcall', hline'], ?_, by rw [hcall', hdone], ?_, ?_, ?_⟩
      · rw [hcall', hlead', State.cancel_call]
        exact congrArg CallEngine.lead hcall
      · rw [hcall', hstate, State.cancel_call]
        exact if_congr (iff_of_eq (congrArg (·.fastReady = true) hcall)) rfl rfl
      · rw [hclock', htreated, State.reportGuardDone_clock, State.cancel_clock]
        exact hclock
      · rw [hview', htreated, State.reportGuardDone_view, State.cancel_view, State.setEntry, hview]
    · rw [if_neg (mt hallowed.mp hn)] at htreated
      have hmay : (z.dropClaim k).mayCall r.cls = true := by simp [State.mayCall, h2]
      have hdial : (z.dropClaim k).canDial = true := by
        rw [State.dropClaim_canDial, State.canDial, hview, hloader, hclock]
        exact hcan
      have hchosen := hdrop.rechosen hq hr hs hmay hdial (by rw [hdropSolo, hcleared]; exact hc) s
      rw [hdropSolo] at hchosen
      rw [htreated]
      exact hchosen
    · rw [if_neg (mt hallowed.mp hn)] at htreated
      have hgiven : z.claimIntoSolo = (z.dropClaim k).giveUpCall ∧ ((z.dropClaim k).giveUpCall).Resting := by
        rw [htreated, State.abandonInClaim]
        rcases hnoLine with hnoLine | hall
        · have hnoLine' : candidate (z.dropClaim k).view.entries (z.dropClaim k).solo 0 = none := by
            rw [hdropSolo, hcleared, hnoLine]
          exact ⟨State.rechoose_of_noLine hnoLine', State.resting_of_noLine hnoLine'⟩
        · have hunhurried : (z.dropClaim k).queue.Unhurried := by rw [hdrop.queue]; exact hall
          refine ⟨?_, .inr (.inr fun l hl => ?_)⟩
          · unfold State.rechoose
            split
            · rfl
            · next r hr =>
              have hcls : 3 ≤ r.cls := by
                simp only [State.callLead] at hr
                split at hr
                · exact hunhurried r (AlertQueue.find_mem hr).1
                · cases hr
              have hmay : (z.dropClaim k).mayCall r.cls = false := by
                rw [State.mayCall, hdropSolo, decide_eq_false (by omega)]
                rfl
              rw [hmay]
              rfl
          · have hnone := (hunhurried.giveBackAll _).noLead (s := (z.dropClaim k).giveUpCall) hdropSolo
            exact absurd (hnone.symm.trans hl) (by simp)
      obtain ⟨hgivenUp, hresting⟩ := hgiven
      obtain ⟨hcall', _, hview'⟩ := hresting.settle_same s
      rw [hgivenUp]
      refine ⟨hcall', ?_, hresting.settle_noneInCall s (giveBackAll_noneInCall _ _), fun reason => ?_⟩
      · rw [State.entry, hview']
        exact hdrop.own
      · rw [State.settle_owes s rfl rfl]
        exact (State.dropClaim_release k k reason z).trans (hnoRelease k reason)
  · have htreated := State.claimIntoSolo_guarding (by rw [hcall, hs]) (by rw [hcall, hk]) (by rw [hentry, hg])
    rw [hentry] at htreated
    have hguardState : (z.setEntry k (s.entry k).passOwnGuard).call.state = .claim := hcall ▸ hs
    obtain ⟨hline', _, hdone, hstate⟩ := State.reportGuardDone_ready hguardState (k := k) (hcall ▸ hk)
    have hmadeIdle : z.claimIntoSolo.call.state ≠ .idle := by
      rw [htreated]
      split
      · rw [hstate]
        split <;> decide
      · rw [hguardState]
        decide
    obtain ⟨hcall', _, hview'⟩ := hset.call hmadeIdle
    refine ⟨?_, fun hholder => ?_, fun hholder => ?_⟩
    · rw [hview', htreated]
      have hset : (z.setEntry k (s.entry k).passOwnGuard).view = { s.view with
          entries := s.view.entries.set k (s.entry k).passOwnGuard } := by rw [State.setEntry, hview]
      split
      · rw [State.reportGuardDone_view]
        exact hset
      · exact hset
    · rw [hcall', htreated, if_neg (by simpa [Option.isSome_iff_ne_none] using hholder)]
      exact hcall
    · rw [hcall', htreated, if_pos (by simp [hholder])]
      refine ⟨hline', hdone, hstate.trans ?_⟩
      exact if_congr (iff_of_eq (congrArg (·.fastReady = true) hcall)) rfl rfl
  · rw [State.claimIntoSolo_same (by rw [hcall, hk]) (by rw [hcall, hentry]; exact h)] at hset ⊢
    obtain ⟨hcall', hclock', hview'⟩ := hset.call (by rw [hcall]; exact hidle)
    exact ⟨hcall'.trans hcall, hview'.trans hview, hclock'.trans hclock⟩

end Sys2Proof.Machine

/-! ### Carry Unit frames received: CARRY and STATE (R19, R23, R155 to R157, R159) -/

namespace Sys2Proof.Machine

open Host

/-! #### The accept-pending marker dropped (R155) -/

/-- The controller with markers withdrawn and their frames aborted (R92, R93). -/
def Rbc.cancelled (p : Marker → Bool) (b : Rbc) : Rbc := { b.withdraw p with
  slots := (b.slots.filter fun t => !(p t.marker && !t.sending)).map fun t =>
    if p t.marker then { t with abort := true } else t }

theorem State.cancel_eq {p : Marker → Bool} (s : State) (h : ∀ origin seq result, p (.outcome origin seq result) = false) :
    s.cancel p = { s with rbc := s.rbc.cancelled p } := by
  have hcarry := State.cancel_carry_of p s h
  calc s.cancel p = { s with rbc := s.rbc.cancelled p, carry := (s.cancel p).carry } := rfl
    _ = { s with rbc := s.rbc.cancelled p } := by rw [hcarry]

theorem State.endAccept_eq {s : State} {a : AcceptPending} (ha : s.carry.accept = some a) : s.endAccept = { s with
    carry := { s.carry with accept := none }
    rbc := s.rbc.cancelled fun m => decide (m = .accept a.origin a.seq a.value) } := by
  simp only [State.endAccept, ha]
  exact State.cancel_eq _ fun _ _ _ => rfl

theorem State.endAccept_accept (s : State) : s.endAccept.carry.accept = none := by
  cases ha : s.carry.accept with
  | none => rw [State.endAccept, ha]; exact ha
  | some a => rw [State.endAccept_eq ha]

theorem State.bidsFor_iff {origin : Nat} {seq : Byte} {s : State} : s.bidsFor origin seq = true ↔
    ∃ v, s.carry.accept = some ⟨origin, seq, v⟩ := by
  unfold State.bidsFor
  split
  · next a ha =>
    rw [decide_eq_true_iff, ha]
    constructor
    · rintro ⟨rfl, rfl⟩
      exact ⟨a.value, rfl⟩
    · rintro ⟨v, hv⟩
      rw [Option.some.inj hv]
      exact ⟨rfl, rfl⟩
  · next hn => simp [hn]

theorem State.dropBid_settled (origin : Nat) (seq : Byte) (s : State) : State.Settled s (s.dropBid origin seq) := by
  unfold State.dropBid
  split
  · exact State.endAccept_settled s
  · exact .refl s

/-- The marker dropped does not look at the queue. -/
theorem State.dropBid_withQueue (origin : Nat) (seq : Byte) (s : State) (q : AlertQueue) :
    ({ s with queue := q } : State).dropBid origin seq = { s.dropBid origin seq with queue := q } := by
  have hbid : State.bidsFor origin seq { s with queue := q } = s.bidsFor origin seq := rfl
  unfold State.dropBid
  rw [hbid]
  split
  · cases ha : s.carry.accept with
    | none => simp only [State.endAccept, ha]
    | some a => rw [State.endAccept_eq ha, State.endAccept_eq (by exact ha)]
  · rfl

/-- The marker dropped does not look at the outcome list. -/
theorem State.dropBid_withOutcomes (origin : Nat) (seq : Byte) (s : State) (l : List OutcomeEntry) :
    ({ s with carry := { s.carry with outcomes := l } } : State).dropBid origin seq =
      { s.dropBid origin seq with carry := { (s.dropBid origin seq).carry with outcomes := l } } := by
  have hbid : State.bidsFor origin seq { s with carry := { s.carry with outcomes := l } } = s.bidsFor origin seq := rfl
  unfold State.dropBid
  rw [hbid]
  split
  · cases ha : s.carry.accept with
    | none => simp only [State.endAccept, ha]
    | some a => rw [State.endAccept_eq ha, State.endAccept_eq (by exact ha)]
  · rfl

theorem State.dropBid_queue (origin : Nat) (seq : Byte) (s : State) : (s.dropBid origin seq).queue = s.queue := by
  unfold State.dropBid
  split
  · exact s.endAccept_queue
  · rfl

theorem State.dropBid_outcomes (origin : Nat) (seq : Byte) (s : State) :
    (s.dropBid origin seq).carry.outcomes = s.carry.outcomes := by
  unfold State.dropBid
  split
  · cases ha : s.carry.accept with
    | none => simp only [State.endAccept, ha]
    | some a => rw [State.endAccept_eq ha]
  · rfl

theorem State.dropBid_time (origin : Nat) (seq : Byte) (s : State) : (s.dropBid origin seq).time = s.time :=
  (State.dropBid_settled origin seq s).time

/-! #### The outcome list (R157) -/

theorem changeFirstOutcome_append {p : OutcomeEntry → Bool} {f : OutcomeEntry → OutcomeEntry} {before after : List OutcomeEntry}
    {e : OutcomeEntry} (he : p e = true) (hb : ∀ x ∈ before, p x = false) :
    changeFirstOutcome p f (before ++ e :: after) = before ++ f e :: after := by
  induction before with
  | nil => exact if_pos he
  | cons x rest ih =>
    have hx := hb x List.mem_cons_self
    rw [List.cons_append, changeFirstOutcome, if_neg (by simp [hx]), ih fun y hy => hb y (List.mem_cons_of_mem _ hy)]
    rfl

/-- A member that meets a condition, and the first of them. -/
theorem exists_first {α : Type} {p : α → Bool} {l : List α} (h : ∃ x ∈ l, p x = true) :
    ∃ before e after, l = before ++ e :: after ∧ p e = true ∧ ∀ x ∈ before, p x = false := by
  have hfind : (l.find? p).isSome = true := List.find?_isSome.mpr h
  obtain ⟨e, he⟩ := Option.isSome_iff_exists.mp hfind
  obtain ⟨hp, before, after, hl, hbefore⟩ := List.find?_eq_some_iff_append.mp he
  exact ⟨before, e, after, hl, hp, fun x hx => by simpa using hbefore x hx⟩

section
variable {c : CarryUnit} {origin : Nat} {seq : Byte} {result : Result}

/-- The entry in no slot that an OUTCOME takes the place of. -/
def OutcomeEntry.isTwin (origin : Nat) (seq : Byte) (e : OutcomeEntry) : Bool := e.names origin seq && !e.inSlot

theorem OutcomeEntry.isTwin_iff {e : OutcomeEntry} : e.isTwin origin seq = true ↔
    e.origin = origin ∧ e.seq = seq ∧ e.inSlot = false := by
  simp [OutcomeEntry.isTwin, OutcomeEntry.names, and_assoc]

theorem CarryUnit.addOutcome_replaces {before after : List OutcomeEntry} {e : OutcomeEntry}
    (hc : c.outcomes = before ++ e :: after) (he : e.isTwin origin seq = true)
    (hb : ∀ x ∈ before, x.isTwin origin seq = false) :
    c.addOutcome origin seq result = { c with outcomes := before ++ ⟨origin, seq, result, false⟩ :: after } := by
  have hany : (c.outcomes.any fun e => e.names origin seq && !e.inSlot) = true := by
    rw [List.any_eq_true, hc]
    exact ⟨e, by simp, he⟩
  have hnew : { e with result := result } = (⟨origin, seq, result, false⟩ : OutcomeEntry) := by
    obtain ⟨ho, hs, hi⟩ := OutcomeEntry.isTwin_iff.mp he
    rw [← ho, ← hs, ← hi]
  have hchange := changeFirstOutcome_append (f := fun e : OutcomeEntry => { e with result := result }) (after := after) he hb
  rw [CarryUnit.addOutcome, if_pos hany, hc, ← hnew]
  exact congrArg (fun l => { c with outcomes := l }) hchange

theorem CarryUnit.addOutcome_appends (hn : ∀ x ∈ c.outcomes, x.isTwin origin seq = false) :
    c.addOutcome origin seq result = { c with outcomes :=
      (if 16 ≤ c.outcomes.length then c.outcomes.eraseP fun e => !e.inSlot else c.outcomes) ++
        [⟨origin, seq, result, false⟩] } := by
  have hany : ¬ (c.outcomes.any fun e => e.names origin seq && !e.inSlot) = true := by
    rw [List.any_eq_true]
    rintro ⟨x, hx, h⟩
    exact absurd ((hn x hx).symm.trans h) (by decide)
  rw [CarryUnit.addOutcome, if_neg hany]
  split <;> rfl

end

/-- How an OUTCOME enters the list. -/
theorem addOutcome_completes (c : CarryUnit) (origin : Nat) (seq : Byte) (result : Result) :
    let twin := fun e : OutcomeEntry => e.origin = origin ∧ e.seq = seq ∧ e.inSlot = false
    let new : OutcomeEntry := ⟨origin, seq, result, false⟩
    (∀ before e after, c.outcomes = before ++ e :: after → twin e → (∀ x ∈ before, ¬ twin x) →
      c.addOutcome origin seq result = { c with outcomes := before ++ new :: after }) ∧
    ((∀ x ∈ c.outcomes, ¬ twin x) →
      (c.outcomes.length < 16 → c.addOutcome origin seq result = { c with outcomes := c.outcomes ++ [new] }) ∧
      (∀ before e after, 16 ≤ c.outcomes.length → c.outcomes = before ++ e :: after → e.inSlot = false →
        (∀ x ∈ before, x.inSlot = true) →
        c.addOutcome origin seq result = { c with outcomes := before ++ after ++ [new] })) ∧
    (c.outcomes.length ≤ 16 → (c.outcomes.filter OutcomeEntry.inSlot).length ≤ 3 →
      (c.addOutcome origin seq result).outcomes.length ≤ 16 ∧
      new ∈ (c.addOutcome origin seq result).outcomes) := by
  intro twin new
  have htwin : ∀ e : OutcomeEntry, ¬ twin e ↔ e.isTwin origin seq = false := fun e => by
    rw [← Bool.not_eq_true]
    exact not_congr OutcomeEntry.isTwin_iff.symm
  refine ⟨fun before e after hc he hb => CarryUnit.addOutcome_replaces hc (OutcomeEntry.isTwin_iff.mpr he) fun x hx =>
    (htwin x).mp (hb x hx), fun hn => ?_, fun hlen hslots => ?_⟩
  · have happend := CarryUnit.addOutcome_appends (result := result) fun x hx => (htwin x).mp (hn x hx)
    refine ⟨fun hlt => ?_, fun before e after hge hc he hb => ?_⟩
    · rw [happend, if_neg (Nat.not_le.mpr hlt)]
    · have herase : (before ++ e :: after).eraseP (fun e => !e.inSlot) = before ++ after := by
        rw [List.eraseP_append_right _ fun x hx => by simp [hb x hx], List.eraseP_cons_of_pos (by simp [he])]
      rw [happend, if_pos hge, hc, herase]
  · by_cases hn : ∀ x ∈ c.outcomes, x.isTwin origin seq = false
    · rw [CarryUnit.addOutcome_appends hn]
      refine ⟨?_, by simp [new]⟩
      split
      · next hge =>
        have hfree : ∃ x ∈ c.outcomes, (!x.inSlot) = true := by
          by_contra hall
          have hfilter : c.outcomes.filter OutcomeEntry.inSlot = c.outcomes :=
            List.filter_eq_self.mpr fun x hx => by
              by_contra hx'
              exact hall ⟨x, hx, by simpa using hx'⟩
          rw [hfilter] at hslots
          omega
        obtain ⟨x, hx, hxfree⟩ := hfree
        have herased := List.length_eraseP_of_mem (p := fun e : OutcomeEntry => !e.inSlot) hx hxfree
        rw [List.length_append, herased]
        simp only [List.length_singleton]
        omega
      · next hlt =>
        rw [List.length_append, List.length_singleton]
        omega
    · obtain ⟨x, hx⟩ := not_forall.mp hn
      obtain ⟨hx, hne⟩ := Classical.not_imp.mp hx
      obtain ⟨before, e, after, hc, he, hb⟩ := exists_first (p := OutcomeEntry.isTwin origin seq) ⟨x, hx, by simpa using hne⟩
      rw [CarryUnit.addOutcome_replaces hc he hb]
      refine ⟨?_, by simp [new]⟩
      rw [hc] at hlen
      simpa using hlen

/-! #### A CARRY received (R19, R155, R156) -/

theorem exec_carryReceived {value : BitVec 13} {payload : BitVec 72} {acked : Bool} {f : CarryFields} {s : State}
    (hhears : s.Hears value) (hread : readCarry value payload = some f) :
    exec (.carryReceived value payload acked) s =
      .next (State.settle (s.heard (receivedFrame .carry value payload) acked)
        ((s.heard (receivedFrame .carry value payload) acked).takeCarry f)) := by
  change execCarryReceived value payload s acked = _
  unfold execCarryReceived
  rw [hread, State.receiveFrame_of_hears hhears]

theorem AlertQueue.hasRoom_iff {q : AlertQueue} : q.hasRoom = true ↔ q.count < 24 ∧ q.carriedCount < 8 := decide_eq_true_iff

theorem repeatsCarried_iff {f : CarryFields} {q : AlertQueue} : q.records.any (State.repeatsCarried f) = true ↔
    ∃ r ∈ q.records, ∃ c, r.kind = .carried c ∧ c.orphaned = false ∧ c.origin = f.origin ∧
      c.originSeq = f.seq ∧ r.cls = f.cls ∧ r.source = f.source ∧ r.qualifier = f.qualifier := by
  rw [List.any_eq_true]
  refine exists_congr fun r => and_congr_right fun _ => ?_
  cases hk : r.kind with
  | own o => simp [State.repeatsCarried, hk]
  | carried c => simp [State.repeatsCarried, hk]

section
variable {f : CarryFields} {s : State}

/-- A CARRY leaves everything but the bid where it is not taken in. -/
theorem State.takeCarry_ignored (h : f.acceptor ≠ s.address ∨ s.loader.configFault = true ∨
    s.queue.records.any (State.repeatsCarried f) = true) : s.takeCarry f = s.dropBid f.origin f.seq := by
  unfold State.takeCarry
  dsimp only
  split
  · next hc =>
    simp only [Bool.and_eq_true, decide_eq_true_eq, Bool.not_eq_true'] at hc
    obtain ⟨haddress, hfault⟩ := hc
    rcases h with h | h | h
    · exact absurd haddress h
    · exact absurd (hfault.symm.trans h) (by decide)
    · rw [State.takeInCarry, State.dropBid_queue, if_pos h]
  · rfl

/-- An OUTCOME owed changes the outcome list alone, by what stands in it. -/
theorem CarryUnit.addOutcome_of_same {c d : CarryUnit} (origin : Nat) (seq : Byte) (result : Result)
    (h : d.outcomes = c.outcomes) :
    d.addOutcome origin seq result = { d with outcomes := (c.addOutcome origin seq result).outcomes } := by
  unfold CarryUnit.addOutcome
  rw [h]
  (repeat' split) <;> rfl

theorem State.takeInCarry_of_new {d : State} (hqueue : d.queue = s.queue) (htime : d.time = s.time)
    (hd : ¬ s.queue.records.any (State.repeatsCarried f) = true) :
    d.takeInCarry f = if s.queue.hasRoom then { d with queue := s.queue.takeCarried s.time f }
      else { d with carry := d.carry.addOutcome f.origin f.seq .returned } := by
  rw [← hqueue] at hd ⊢
  rw [← htime]
  exact if_neg hd

/-- A CARRY not taken in already is admitted with room for it, and is owed an OUTCOME RETURNED without. -/
theorem State.takeCarry_taken (ha : f.acceptor = s.address) (hf : s.loader.configFault = false)
    (hd : ¬ s.queue.records.any (State.repeatsCarried f) = true) : s.takeCarry f =
      State.dropBid f.origin f.seq (if s.queue.hasRoom then { s with queue := s.queue.takeCarried s.time f }
        else { s with carry := s.carry.addOutcome f.origin f.seq .returned }) := by
  have htaken : s.takeCarry f = (s.dropBid f.origin f.seq).takeInCarry f := if_pos (by simp [ha, hf])
  rw [htaken, State.takeInCarry_of_new (State.dropBid_queue f.origin f.seq s) (State.dropBid_time f.origin f.seq s) hd]
  split
  · exact (State.dropBid_withQueue f.origin f.seq s _).symm
  · rw [CarryUnit.addOutcome_of_same _ _ _ (State.dropBid_outcomes f.origin f.seq s),
      CarryUnit.addOutcome_of_same (c := s.carry) (d := s.carry) _ _ _ rfl]
    exact (State.dropBid_withOutcomes f.origin f.seq s _).symm

theorem State.takeCarry_accept {v : Nat} (h : s.carry.accept = some ⟨f.origin, f.seq, v⟩) :
    (s.takeCarry f).carry.accept = none := by
  have hdrop : (s.dropBid f.origin f.seq).carry.accept = none := by
    rw [State.dropBid, if_pos (State.bidsFor_iff.mpr ⟨v, h⟩), State.endAccept_accept]
  have hadd : ∀ c : CarryUnit, (c.addOutcome f.origin f.seq .returned).accept = c.accept := fun c => by
    unfold CarryUnit.addOutcome
    (repeat' split) <;> rfl
  unfold State.takeCarry State.takeInCarry
  dsimp only
  (repeat' split) <;> first
    | exact hdrop
    | exact (hadd _).trans hdrop

end

/-- Settles O46: the outcome list, and the CARRY by whether it is taken in. -/
theorem carryReceivedCompletes : Obligations.CarryReceivedCompletes := by
  unfold Obligations.CarryReceivedCompletes
  refine ⟨addOutcome_completes, fun value payload acked f s hhears hread => ?_⟩
  intro duplicate heard
  have hduplicate : heard.queue.records.any (State.repeatsCarried f) = true ↔ duplicate := repeatsCarried_iff
  have hset := State.settle_settled heard (heard.takeCarry f)
  refine ⟨heard.settle (heard.takeCarry f), exec_carryReceived hhears hread, fun v hv => ?_, fun h => ?_,
    fun ha hf hd hcount hcarried => ?_, fun ha hf hd hfull => ?_⟩
  · have hnone : (heard.takeCarry f).carry.accept = none := State.takeCarry_accept (s := heard) hv
    rw [State.settle_accept, checkAccept_of_none hnone, hnone]
  · have hmade : heard.takeCarry f = heard.dropBid f.origin f.seq :=
      State.takeCarry_ignored (h.imp_right (Or.imp_right hduplicate.mpr))
    exact (State.dropBid_settled f.origin f.seq heard).trans (hset.of_eq hmade)
  · have hmade := State.takeCarry_taken (s := heard) ha hf (mt hduplicate.mp hd)
    have hroom := hmade.trans (congrArg _ (if_pos (AlertQueue.hasRoom_iff.mpr ⟨hcount, hcarried⟩)))
    exact (State.dropBid_settled f.origin f.seq _).trans (hset.of_eq hroom)
  · have hmade := State.takeCarry_taken (s := heard) ha hf (mt hduplicate.mp hd)
    have hroom : ¬ heard.queue.hasRoom = true := fun h => by
      obtain ⟨h1, h2⟩ := AlertQueue.hasRoom_iff.mp h
      rcases hfull with hfull | hfull
      · exact absurd h1 (Nat.not_lt.mpr hfull)
      · exact absurd h2 (Nat.not_lt.mpr hfull)
    have hreturned := hmade.trans (congrArg _ (if_neg hroom))
    exact (State.dropBid_settled f.origin f.seq _).trans (hset.of_eq hreturned)

/-! #### A STATE received (R23, R159) -/

theorem exec_stateReceived {value : BitVec 13} {payload : BitVec 32} {acked : Bool} {f : StateFields} {s : State}
    (hhears : s.Hears value) (hread : readState value payload = some f) :
    exec (.stateReceived value payload acked) s =
      .next (State.settleFrames (s.heard (receivedFrame .state value payload) acked)
        ((s.heard (receivedFrame .state value payload) acked).takeState f)) := by
  change execStateReceived value payload s acked = _
  unfold execStateReceived
  rw [hread, State.receiveFrame_of_hears hhears]

/-- Frames cancelled touch the bus controller and the outcome list alone, which gains no entry. -/
theorem State.cancel_shape (p : Marker → Bool) (s : State) : ∃ (b : Rbc) (l : List OutcomeEntry),
    s.cancel p = { s with rbc := b, carry := { s.carry with outcomes := l } } ∧ ∀ e ∈ l, e ∈ s.carry.outcomes := by
  have hfold : ∀ (slots : List Slot) (c : CarryUnit), ∃ l,
      slots.foldl (fun c t => c.slotEmptied t.marker) c = { c with outcomes := l } ∧ ∀ e ∈ l, e ∈ c.outcomes := by
    intro slots
    induction slots with
    | nil => exact fun c => ⟨c.outcomes, rfl, fun e he => he⟩
    | cons x rest ih =>
      intro c
      obtain ⟨l, hl, hsub⟩ := ih (c.slotEmptied x.marker)
      exact ⟨l, hl, fun e he => List.mem_of_mem_eraseP (hsub e he)⟩
  obtain ⟨l, hl, hsub⟩ := hfold (s.rbc.slots.filter fun t => p t.marker && !t.sending) s.carry
  refine ⟨(s.cancel p).rbc, l, ?_, hsub⟩
  rw [← hl]
  rfl

/-- The OUTCOMEs owed to a restarted origin withdrawn (R159): those left to it are in slots. -/
theorem State.dropOutcomes_shape (origin : Nat) (s : State) : ∃ (b : Rbc) (l : List OutcomeEntry),
    s.dropOutcomes origin = { s with rbc := b, carry := { s.carry with outcomes := l } } ∧
      ∀ e ∈ l, e ∈ s.carry.outcomes ∧ (e.origin = origin → e.inSlot = true) := by
  obtain ⟨b, l, heq, hsub⟩ := State.cancel_shape (Marker.answers origin) { s with carry := { s.carry with
    outcomes := s.carry.outcomes.filter fun e => decide (e.origin ≠ origin) || e.inSlot } }
  refine ⟨b, l, heq, fun e he => ?_⟩
  obtain ⟨hmem, hkept⟩ := List.mem_filter.mp (hsub e he)
  refine ⟨hmem, fun ho => ?_⟩
  simpa [ho] using hkept

/-- What a fresh-start mark leaves of a station (R159). -/
theorem State.takeState_fresh {f : StateFields} (hf : f.fresh = true) (s : State) :
    ∃ (b : Rbc) (l : List OutcomeEntry) (bid : Option AcceptPending),
    s.takeState f = { s with
      queue := { s.queue with records := s.queue.records.map (State.orphan f.sender) }
      rbc := b
      carry := { s.carry with accept := bid, outcomes := l } } ∧
      bid = (s.carry.accept.filter fun a => decide (a.origin ≠ f.sender)) ∧
      ∀ e ∈ l, e ∈ s.carry.outcomes ∧ (e.origin = f.sender → e.inSlot = true) := by
  obtain ⟨b, l, heq, hl⟩ := State.dropOutcomes_shape f.sender { s with queue := { s.queue with
    records := s.queue.records.map (State.orphan f.sender) } }
  unfold State.takeState
  rw [if_pos hf]
  dsimp only
  rw [heq]
  cases ha : s.carry.accept with
  | none => exact ⟨b, l, s.carry.accept, rfl, ha, hl⟩
  | some a =>
    by_cases ho : a.origin = f.sender
    · exact ⟨_, l, none, (if_pos ho).trans (State.endAccept_eq (by exact ha)), by simp [Option.filter, ho], hl⟩
    · exact ⟨b, l, s.carry.accept, if_neg ho, ha.trans (by simp [Option.filter, ho]), hl⟩

theorem State.orphan_eq (origin : Nat) : State.orphan origin = fun r => match r.kind with
    | .own _ => r
    | .carried c => if c.origin = origin then { r with kind := .carried { c with orphaned := true } } else r := by
  funext r
  unfold State.orphan
  cases r.kind <;> rfl

/-- Settles O48: what the fresh-start mark changes before the frames are loaded, and what the loading leaves. -/
theorem stateReceivedCompletes : Obligations.StateReceivedCompletes := by
  unfold Obligations.StateReceivedCompletes
  intro value payload acked f s hhears hread heard
  have hframes := State.settleFrames_framesOnly heard (heard.takeState f)
  have hclosed := State.settleFrames_closed heard (heard.takeState f)
  have hset := hframes.settled
  by_cases hfresh : f.fresh = true
  · obtain ⟨b, l, bid, hmade, hbid, hl⟩ := State.takeState_fresh hfresh heard
    have haccept : (heard.settleFrames (heard.takeState f)).carry.accept =
        s.carry.accept.filter fun a => decide (a.origin ≠ f.sender) :=
      (hframes.sameAccept.trans (congrArg (fun t : State => t.carry.accept) hmade :)).trans hbid
    refine ⟨heard.settleFrames (heard.takeState f), exec_stateReceived hhears hread,
      hframes.sameCall.trans (congrArg State.call hmade :), hframes.sameView.trans (congrArg State.view hmade :),
      hframes.sameClock.trans (congrArg State.clock hmade :),
      hframes.sameOffer.trans (congrArg (fun t : State => t.carry.offer) hmade :),
      hset.zone.trans (congrArg State.zone hmade :), hset.time.trans (congrArg State.time hmade :),
      hset.loader.trans (congrArg State.loader hmade :), fun hnot => absurd (hnot.symm.trans hfresh) (by decide),
      fun _ => ⟨?_, fun e he ho => ?_, fun a ha => ?_, fun hother => ?_⟩⟩
    · refine (hframes.sameQueue.trans (congrArg State.queue hmade :)).trans ?_
      rw [State.orphan_eq]
      rfl
    · have hin : ∀ x ∈ (heard.takeState f).carry.outcomes, x ∈ s.carry.outcomes ∧ (x.origin = f.sender → x.inSlot = true) := by
        rw [hmade]
        exact hl
      rcases hclosed.outcomes e he with hsame | ⟨_, hloaded⟩
      · obtain ⟨hmem, hslot⟩ := hin e hsame
        exact ⟨hslot ho, hmem⟩
      · exact absurd ((hin _ hloaded).2 ho) Bool.false_ne_true
    · rw [haccept, Option.filter_eq_some_iff] at ha
      exact ⟨ha.1, of_decide_eq_true ha.2⟩
    · rw [haccept]
      cases ha : s.carry.accept with
      | none => rfl
      | some a => simp [Option.filter, hother a ha]
  · have hmade : heard.takeState f = heard := if_neg hfresh
    rw [hmade] at hframes
    refine ⟨heard.settleFrames heard, ?_, hframes.sameCall, hframes.sameView, hframes.sameClock, hframes.sameOffer,
      hframes.settled.zone, hframes.settled.time, hframes.settled.loader, fun _ => hframes, fun h => absurd h hfresh⟩
    rw [exec_stateReceived hhears hread]
    exact congrArg (fun t => Outcome.next (heard.settleFrames t)) hmade

end Sys2Proof.Machine

/-! ### The candidate line, and OFFER and ACCEPT received (R48, R49, R87, R99, R149, R154, R155) -/

namespace Sys2Proof.Machine

open Host

/-! #### The first of the best lines (R99) -/

/-- A line of a list that no other betters by the value taken, the lowest in number of equals. -/
def BestLine (val : LineId → Int) (l : List LineId) (k : LineId) : Prop :=
  k ∈ l ∧ ∀ j ∈ l, val k < val j ∨ val k = val j ∧ k.index ≤ j.index

theorem LineId.index_inj {j k : LineId} (h : j.index = k.index) : j = k := by
  cases j <;> cases k <;> first
    | rfl
    | cases h

section
variable {val : LineId → Int} {l : List LineId} {k : LineId}

theorem BestLine.unique {m : LineId} (hk : BestLine val l k) (hm : BestLine val l m) : k = m := by
  have hkm := hk.2 m hm.1
  have hmk := hm.2 k hk.1
  exact LineId.index_inj (by omega)

theorem BestLine.cons_self {rest : List LineId} (hs : (k :: rest).Pairwise fun a b => a.index < b.index)
    (h : ∀ j ∈ rest, val k ≤ val j) : BestLine val (k :: rest) k := by
  refine ⟨List.mem_cons_self, fun j hj => ?_⟩
  rcases List.mem_cons.mp hj with rfl | hj
  · exact .inr ⟨rfl, Nat.le_refl _⟩
  · have := h j hj
    have := (List.pairwise_cons.mp hs).1 j hj
    omega

theorem BestLine.cons_of_lt {j : LineId} {rest : List LineId} (h : BestLine val rest k) (hlt : val k < val j) :
    BestLine val (j :: rest) k := by
  refine ⟨List.mem_cons_of_mem _ h.1, fun i hi => ?_⟩
  rcases List.mem_cons.mp hi with rfl | hi
  · exact .inl hlt
  · exact h.2 i hi

end

/-- A recursion that takes the head of a list unless the rest holds a better one finds the best line. -/
theorem bestLine_iff {pick : List LineId → Option LineId} {val : LineId → Int} (hnil : pick [] = none)
    (hcons : ∀ k rest, pick (k :: rest) =
      (pick rest).elim (some k) fun m => if val m < val k then some m else some k)
    {l : List LineId} (hs : l.Pairwise fun a b => a.index < b.index) {k : LineId} :
    pick l = some k ↔ BestLine val l k := by
  have hfound : ∀ l : List LineId, l.Pairwise (fun a b => a.index < b.index) → l ≠ [] →
      ∃ m, pick l = some m ∧ BestLine val l m := by
    intro l
    induction l with
    | nil => exact fun _ h => absurd rfl h
    | cons j rest ih =>
      intro hs _
      rw [hcons]
      by_cases hrest : rest = []
      · rw [hrest, hnil]
        rw [hrest] at hs
        exact ⟨j, rfl, BestLine.cons_self hs fun _ h => nomatch h⟩
      · obtain ⟨m, hm, hbest⟩ := ih (List.pairwise_cons.mp hs).2 hrest
        rw [hm, Option.elim_some]
        split
        · next hlt => exact ⟨m, rfl, hbest.cons_of_lt hlt⟩
        · next hge =>
          refine ⟨j, rfl, BestLine.cons_self hs fun i hi => ?_⟩
          have := hbest.2 i hi
          omega
  by_cases hl : l = []
  · rw [hl, hnil]
    refine ⟨fun h => ?_, fun h => ?_⟩
    · cases h
    · cases h.1
  · obtain ⟨m, hm, hbest⟩ := hfound l hs hl
    rw [hm, Option.some.injEq]
    exact ⟨fun h => h ▸ hbest, fun h => hbest.unique h⟩

theorem linesWhere_sorted (p : Entry → Bool) (v : Four Entry) :
    (linesWhere p v).Pairwise fun a b => a.index < b.index :=
  List.Pairwise.filter _ (by decide)

/-- The line of the lowest score of those that meet a condition (R99). -/
theorem lowestScore_iff {p : Entry → Bool} {v : Four Entry} {k : LineId} : lowestScore v (linesWhere p v) = some k ↔
    p (v.get k) = true ∧ ∀ j, p (v.get j) = true → (v.get k).score < (v.get j).score ∨
      (v.get k).score = (v.get j).score ∧ k.index ≤ j.index := by
  rw [bestLine_iff (pick := lowestScore v) (val := fun j => (v.get j).score) rfl
    (fun k rest => by cases h : lowestScore v rest <;> simp [lowestScore, h]) (linesWhere_sorted p v)]
  simp only [BestLine, mem_linesWhere, Int.ofNat_lt, Int.ofNat_inj]

/-- The line of the highest key to displace of those that meet a condition (R99). -/
theorem highestKey_iff {p : Entry → Bool} {v : Four Entry} {k : LineId} : highestKey v (linesWhere p v) = some k ↔
    p (v.get k) = true ∧ ∀ j, p (v.get j) = true →
      (keyToDisplace (v.get j)).getD 0 < (keyToDisplace (v.get k)).getD 0 ∨
      (keyToDisplace (v.get j)).getD 0 = (keyToDisplace (v.get k)).getD 0 ∧ k.index ≤ j.index := by
  rw [bestLine_iff (pick := highestKey v) (val := fun j => -((keyToDisplace (v.get j)).getD 0 : Int)) rfl
    (fun k rest => by cases h : highestKey v rest <;> simp [highestKey, h]) (linesWhere_sorted p v)]
  simp only [BestLine, mem_linesWhere, Int.neg_lt_neg_iff, Int.ofNat_lt, Int.neg_inj, Int.ofNat_inj]
  refine and_congr_right fun _ => forall_congr' fun j => imp_congr_right fun _ => ?_
  rw [eq_comm (a := (keyToDisplace (v.get k)).getD 0)]

/-! #### Eligibility and the best score (R49, R154) -/

theorem Entry.usable_iff {e : Entry} : e.usable = true ↔ e.wired = true ∧ e.dead = false ∧ e.trouble = false := by
  unfold Entry.usable Entry.summary
  cases e.wired <;> cases e.dead <;> cases e.trouble <;> simp

theorem LineView.anyUsable_iff {v : LineView} : v.anyUsable = true ↔ ∃ k, (v.get k).usable = true := by
  unfold LineView.anyUsable
  rw [List.any_eq_true]
  constructor
  · rintro ⟨e, he, hu⟩
    obtain ⟨k, rfl⟩ := mem_toList.mp he
    exact ⟨k, hu⟩
  · rintro ⟨k, hu⟩
    exact ⟨v.get k, mem_toList.mpr ⟨k, rfl⟩, hu⟩

theorem State.eligible_iff {s : State} : s.eligible = true ↔ s.loader.settings.willing = true ∧
    s.loader.configFault = false ∧ s.solo = false ∧ s.rbc.join = .passed ∧ s.clock.latch = false ∧
    s.loader.settings.number1 ≠ [] ∧ s.queue.commFail = false ∧ (∃ k, (s.entry k).usable = true) ∧
    s.queue.records.length < 24 ∧ (s.queue.records.filter Record.isCarried).length < 8 := by
  simp only [State.eligible, Bool.and_eq_true, Bool.not_eq_true', decide_eq_true_eq, List.isEmpty_eq_false_iff,
    LineView.anyUsable_iff, AlertQueue.hasRoom_iff, and_assoc]
  rfl

theorem LineView.bestScore_iff {v : LineView} {best : Nat} : v.bestScore = some best ↔
    (∃ k, (v.get k).usable = true ∧ (v.get k).score = best) ∧ ∀ k, (v.get k).usable = true → best ≤ (v.get k).score := by
  have hleast : ∀ {k}, lowestScore v.entries (linesWhere Entry.usable v.entries) = some k →
      (v.get k).usable = true ∧ ∀ j, (v.get j).usable = true → (v.get k).score ≤ (v.get j).score := fun h => by
    obtain ⟨hk, hbest⟩ := lowestScore_iff.mp h
    refine ⟨hk, fun j hj => ?_⟩
    rcases hbest j hj with h | h
    · exact h.le
    · exact h.1.le
  unfold LineView.bestScore
  rw [Option.map_eq_some_iff]
  constructor
  · rintro ⟨k, hk, rfl⟩
    obtain ⟨husable, hbest⟩ := hleast hk
    exact ⟨⟨k, husable, rfl⟩, hbest⟩
  · rintro ⟨⟨k, hk, rfl⟩, hbest⟩
    cases hlow : lowestScore v.entries (linesWhere Entry.usable v.entries) with
    | none => exact absurd ((linesWhere_nil.mp (lowestScore_none hlow) k).symm.trans hk) Bool.false_ne_true
    | some m =>
      obtain ⟨hm, hmin⟩ := hleast hlow
      exact ⟨m, rfl, Nat.le_antisymm (hmin k hk) (hbest m hm)⟩

theorem LineView.bestScore_isSome {v : LineView} : v.bestScore.isSome = true ↔ ∃ k, (v.get k).usable = true := by
  constructor
  · intro h
    obtain ⟨best, hbest⟩ := Option.isSome_iff_exists.mp h
    obtain ⟨⟨k, hk, _⟩, _⟩ := LineView.bestScore_iff.mp hbest
    exact ⟨k, hk⟩
  · rintro ⟨k, hk⟩
    unfold LineView.bestScore
    rw [Option.isSome_map, Option.isSome_iff_ne_none]
    intro hnone
    exact absurd ((linesWhere_nil.mp (lowestScore_none hnone) k).symm.trans hk) Bool.false_ne_true

/-! #### OFFER and ACCEPT received -/

theorem exec_offerReceived {value : BitVec 13} {payload : BitVec 8} {acked : Bool} {f : OfferFields} {s : State}
    (hhears : s.Hears value) (hread : readOffer value payload = some f) :
    exec (.offerReceived value payload acked) s =
      .next (State.settleFrames (s.heard (receivedFrame .offer value payload) acked)
        ((s.heard (receivedFrame .offer value payload) acked).takeOffer f)) := by
  change execOfferReceived value payload s acked = _
  unfold execOfferReceived
  rw [hread, State.receiveFrame_of_hears hhears]

theorem exec_acceptReceived {value : BitVec 13} {payload : BitVec 16} {acked : Bool} {f : AcceptFields} {s : State}
    (hhears : s.Hears value) (hread : readAccept value payload = some f) :
    exec (.acceptReceived value payload acked) s =
      .next (State.settleFrames (s.heard (receivedFrame .accept value payload) acked)
        ((s.heard (receivedFrame .accept value payload) acked).takeAccept f)) := by
  change execAcceptReceived value payload s acked = _
  unfold execAcceptReceived
  rw [hread, State.receiveFrame_of_hears hhears]

/-- The loading of frames withdraws no frame but a STATE (R175). -/
theorem State.settleFrames_owes {before s : State} {m : Marker} (hm : m ≠ .state) (h : s.rbc.owes m = true) :
    (before.settleFrames s).rbc.owes m = true := by
  have howe : (State.noteReported before s).oweState.rbc.owes m = true := by
    have hnoted : (State.noteReported before s).rbc = s.rbc := State.noteReported_rbc s before
    rw [owes_iff, ← hnoted] at h
    rw [owes_iff]
    unfold State.oweState
    split
    · split
      · exact h.imp_left fun h => List.mem_append_left _ h
      · exact h
    · exact h.imp_left fun h => List.mem_filter.mpr ⟨h, by simp [hm]⟩
  exact State.loadOne_owes (State.loadOne_owes (State.loadOne_owes howe))

theorem Rbc.owe_owes (m : Marker) (b : Rbc) : (b.owe m).owes m = true :=
  (owes_iff _ _).mpr (.inl (List.mem_append_right _ List.mem_cons_self))

theorem State.FramesOnly.of_eq {u v t : State} (h : State.FramesOnly u t) (e : u = v) : State.FramesOnly v t := e ▸ h

/-- A bid ended and its ACCEPT no longer wanted: frames alone move from there (R155). -/
theorem State.endAccept_framesOnly {s : State} {a : AcceptPending} (ha : s.carry.accept = some a) :
    State.FramesOnly { s with carry := { s.carry with accept := none } } s.endAccept := by
  have h := State.endAccept_settled s
  have heq := State.endAccept_eq ha
  refine ⟨⟨h.loader, h.time, h.zone, h.tone, h.pending, h.allDead, h.entries, h.wire, h.queue, h.records, h.owed, h.inCall,
    h.call, h.latch, h.warmTime, h.outcomes, h.clash, h.freshMark, h.spacing, h.noMore, h.offer⟩, ?_, ?_, ?_, ?_, ?_, ?_, ?_⟩
  all_goals rw [heq]

theorem State.windowFor_iff {seq : Byte} {s : State} : s.windowFor seq = true ↔
    ∃ key, s.carry.offer = some ⟨seq, key, .window⟩ := by
  unfold State.windowFor
  split
  · next o ho =>
    rw [decide_eq_true_iff, ho]
    constructor
    · rintro ⟨rfl, hphase⟩
      exact ⟨o.key, by rw [← hphase]⟩
    · rintro ⟨key, hkey⟩
      rw [Option.some.inj hkey]
      exact ⟨rfl, rfl⟩
  · next hn => simp [hn]

theorem offerReceived_completes (value : BitVec 13) (payload : BitVec 8) (acked : Bool) (f : OfferFields) (s : State)
    (hhears : s.Hears value) (hread : readOffer value payload = some f) :
    let heard := s.heard (receivedFrame .offer value payload) acked
    ∃ t, exec (.offerReceived value payload acked) s = .next t ∧
      (∀ score, heard.eligible = true → s.carry.accept = none → s.view.bestScore = some score →
        t.rbc.owes (.accept f.origin f.seq (16 * score + s.address)) = true ∧
        State.FramesOnly { heard with
          carry := { s.carry with accept := some ⟨f.origin, f.seq, 16 * score + s.address⟩ }
          rbc := heard.rbc.owe (.accept f.origin f.seq (16 * score + s.address)) } t) ∧
      (heard.eligible = true → s.view.bestScore.isSome = true) ∧
      (heard.eligible = false ∨ s.carry.accept.isSome = true → State.FramesOnly heard t) := by
  intro heard
  have hframes := State.settleFrames_framesOnly heard (heard.takeOffer f)
  refine ⟨heard.settleFrames (heard.takeOffer f), exec_offerReceived hhears hread, fun score he hn hbest => ?_,
    fun he => ?_, fun h => hframes.of_eq (if_neg fun hbid => ?_)⟩
  · have hmade : heard.takeOffer f = heard.bid f score := by
      have hguard : (heard.eligible && heard.carry.accept.isNone) = true := by
        rw [he, show heard.carry.accept = none from hn]
        rfl
      have hscore : heard.view.bestScore = some score := hbest
      rw [State.takeOffer, if_pos hguard, hscore]
    refine ⟨State.settleFrames_owes Marker.noConfusion ?_, hframes.of_eq hmade⟩
    rw [hmade]
    exact Rbc.owe_owes _ _
  · obtain ⟨-, -, -, -, -, -, -, husable, -⟩ := State.eligible_iff.mp he
    exact LineView.bestScore_isSome.mpr husable
  · obtain ⟨helig, hnone⟩ := Bool.and_eq_true_iff.mp hbid
    rcases h with h | h
    · exact absurd (h.symm.trans helig) Bool.false_ne_true
    · rw [Option.isNone_iff_eq_none.mp (show s.carry.accept.isNone = true from hnone)] at h
      cases h

theorem acceptReceived_completes (value : BitVec 13) (payload : BitVec 16) (acked : Bool) (f : AcceptFields) (s : State)
    (hhears : s.Hears value) (hread : readAccept value payload = some f) :
    let heard := s.heard (receivedFrame .accept value payload) acked
    ∃ t, exec (.acceptReceived value payload acked) s = .next t ∧
      (∀ key, f.origin = s.address → s.carry.offer = some ⟨f.seq, key, .window⟩ →
        t.rbc.owes (.carry f.seq f.sender) = true ∧
        State.FramesOnly { heard with
          carry := { s.carry with offer := some ⟨f.seq, key, .carrying f.sender⟩ }
          rbc := heard.rbc.owe (.carry f.seq f.sender) } t) ∧
      (f.origin = s.address → (∀ key, s.carry.offer ≠ some ⟨f.seq, key, .window⟩) → State.FramesOnly heard t) ∧
      (f.origin ≠ s.address →
        (∀ v, s.carry.accept = some ⟨f.origin, f.seq, v⟩ →
          State.FramesOnly { heard with carry := { s.carry with accept := none } } t ∧
          (s.rbc.sendingSlot = none → t.rbc.owes (.accept f.origin f.seq v) = false)) ∧
        ((∀ v, s.carry.accept ≠ some ⟨f.origin, f.seq, v⟩) → State.FramesOnly heard t)) := by
  intro heard
  have hframes := State.settleFrames_framesOnly heard (heard.takeAccept f)
  refine ⟨heard.settleFrames (heard.takeAccept f), exec_acceptReceived hhears hread, fun key ho hoffer => ?_,
    fun ho hn => hframes.of_eq ?_, fun ho => ?_⟩
  · have hmade : heard.takeAccept f = heard.acceptOffer f :=
      (if_pos ho).trans (if_pos (State.windowFor_iff.mpr ⟨key, hoffer⟩))
    have haccepted : heard.acceptOffer f = { heard with
        carry := { s.carry with offer := some ⟨f.seq, key, .carrying f.sender⟩ }
        rbc := heard.rbc.owe (.carry f.seq f.sender) } := by
      unfold State.acceptOffer
      rw [show heard.carry.offer = some ⟨f.seq, key, .window⟩ from hoffer]
      rfl
    refine ⟨State.settleFrames_owes Marker.noConfusion ?_, hframes.of_eq (hmade.trans haccepted)⟩
    rw [hmade, haccepted]
    exact Rbc.owe_owes _ _
  · refine (if_pos ho).trans (if_neg fun hwindow => ?_)
    obtain ⟨key, hkey⟩ := State.windowFor_iff.mp hwindow
    exact hn key hkey
  · have hmade : heard.takeAccept f = heard.dropBid f.origin f.seq := if_neg ho
    refine ⟨fun v hv => ?_, fun hn => hframes.of_eq (hmade.trans (if_neg fun hbid => ?_))⟩
    · have hended : heard.takeAccept f = heard.endAccept := hmade.trans (if_pos (State.bidsFor_iff.mpr ⟨v, hv⟩))
      refine ⟨(State.endAccept_framesOnly (s := heard) hv).trans (hframes.of_eq hended), fun hsending => ?_⟩
      rw [Bool.eq_false_iff]
      intro howes
      have hmarker := (State.settleFrames_closed heard (heard.takeAccept f)).owesOnly _ rfl howes
      have hcancel : heard.endAccept = State.cancel (fun m => decide (m = .accept f.origin f.seq v))
          { heard with carry := { heard.carry with accept := none } } := by
        simp only [State.endAccept, show heard.carry.accept = some ⟨f.origin, f.seq, v⟩ from hv]
      have hnosending : heard.rbc.sendingSlot = none := (State.heard_noSending _ acked s).trans hsending
      rw [hended, hcancel] at hmarker
      exact absurd (hmarker.symm.trans (State.cancel_gone _ _ _ (decide_eq_true rfl) (by exact hnosending))) (by decide)
    · obtain ⟨v, hv⟩ := State.bidsFor_iff.mp hbid
      exact hn v hv

/-- Settles O45: eligibility and the best score by the model's tests, and the two frames by what they make. -/
theorem offerAndAcceptReceivedComplete : Obligations.OfferAndAcceptReceivedComplete := by
  unfold Obligations.OfferAndAcceptReceivedComplete
  refine ⟨fun s => ?_, offerReceived_completes, acceptReceived_completes⟩
  intro usable score
  have husable : ∀ k, (s.entry k).usable = true ↔ usable k := fun k => Entry.usable_iff
  refine ⟨?_, fun best => ?_⟩
  · rw [State.eligible_iff]
    simp only [husable]
  · refine LineView.bestScore_iff.trans ?_
    simp only [State.entry] at husable
    simp only [husable]
    rfl

end Sys2Proof.Machine

/-! ### The candidate line and the end of the hang-up hold (R27, R48, R59, R66, R99, R100, R108, R140, R164, Table 6-1) -/

namespace Sys2Proof.Machine

open Host

/-! #### The tiers of Table 6-1 -/

/-- The line of tier 1. -/
def firstFree (v : Four Entry) : Option LineId :=
  lowestScore v (linesWhere (fun e => decide (e.derived = .free) && !e.trouble) v)

/-- The line of tier 2. -/
def firstOffice (v : Four Entry) (cls : Nat) : Option LineId :=
  lowestScore v (linesWhere (fun e => decide (e.derived = .office ∧ cls ≤ 3) && !e.trouble) v)

/-- The line of tier 3. -/
def firstTroubled (v : Four Entry) : Option LineId :=
  lowestScore v (linesWhere (fun e => decide (e.derived = .free) && e.trouble) v)

/-- The line of tier 4. -/
def firstPeer (v : Four Entry) (solo : Bool) (cls : Nat) : Option LineId :=
  if solo then none else highestKey v (linesWhere (preemptable cls) v)

/-- The candidate is the line of the first tier that has one. -/
theorem candidate_eq (v : Four Entry) (solo : Bool) (cls : Nat) : candidate v solo cls =
    (((firstFree v).map fun k => (k, Tier.free)).or (((firstOffice v cls).map fun k => (k, Tier.office)).or
      (((firstTroubled v).map fun k => (k, Tier.troubled)).or
        ((firstPeer v solo cls).map fun k => (k, tierOver (v.get k)))))) := by
  unfold candidate
  split
  · next k h => rw [firstFree, h]; rfl
  · next h =>
    rw [firstFree, h]
    split
    · next k h => rw [firstOffice, h]; rfl
    · next h =>
      rw [firstOffice, h]
      split
      · next k h => rw [firstTroubled, h]; rfl
      · next h =>
        rw [firstTroubled, h, firstPeer]
        split
        · rfl
        · split
          · next k h => rw [h]; rfl
          · next h => rw [h]; rfl

section
variable {v : Four Entry} {solo : Bool} {cls : Nat}

theorem candidate_eq_some {k : LineId} {tier : Tier} : candidate v solo cls = some (k, tier) ↔
    (tier = .free ∧ firstFree v = some k) ∨
    (tier = .office ∧ firstFree v = none ∧ firstOffice v cls = some k) ∨
    (tier = .troubled ∧ firstFree v = none ∧ firstOffice v cls = none ∧ firstTroubled v = some k) ∨
    (tier = tierOver (v.get k) ∧ firstFree v = none ∧ firstOffice v cls = none ∧ firstTroubled v = none ∧
      firstPeer v solo cls = some k) := by
  have hpair : ∀ {a : Option LineId} {f : LineId → Tier}, (a.map fun k => (k, f k)) = some (k, tier) ↔
      tier = f k ∧ a = some k := fun {a f} => by
    rw [Option.map_eq_some_iff]
    constructor
    · rintro ⟨j, rfl, hj⟩
      cases hj
      exact ⟨rfl, rfl⟩
    · rintro ⟨rfl, rfl⟩
      exact ⟨k, rfl, rfl⟩
  rw [candidate_eq]
  simp only [Option.or_eq_some_iff, hpair, Option.map_eq_none_iff]
  tauto

theorem candidate_eq_none : candidate v solo cls = none ↔
    firstFree v = none ∧ firstOffice v cls = none ∧ firstTroubled v = none ∧ firstPeer v solo cls = none := by
  rw [candidate_eq]
  simp only [Option.or_eq_none_iff, Option.map_eq_none_iff]

theorem lowestScore_eq_none {p : Entry → Bool} : lowestScore v (linesWhere p v) = none ↔ ∀ k, ¬ p (v.get k) = true := by
  simp only [Bool.not_eq_true]
  rw [← linesWhere_nil]
  exact ⟨lowestScore_none, fun h => by rw [h]; rfl⟩

theorem highestKey_eq_none {p : Entry → Bool} : highestKey v (linesWhere p v) = none ↔ ∀ k, ¬ p (v.get k) = true := by
  simp only [Bool.not_eq_true]
  rw [← linesWhere_nil]
  exact ⟨highestKey_none, fun h => by rw [h]; rfl⟩

end

/-! #### The derived state of a line (R59, Table 4-3) -/

/-- A wired line that is sensed, not dead, and not this station's own. -/
def Entry.Sensed (e : Entry) : Prop := e.wired = true ∧ e.own = false ∧ e.dead = false ∧ e.sense ≠ none

theorem Entry.derived_of_sensed {e : Entry} (h : e.Sensed) : e.derived =
    if e.holder = none ∧ e.pending = none then (if e.sense = some .offHook then .office else .free) else .peer := by
  obtain ⟨hwired, hown, hdead, hsense⟩ := h
  simp only [Entry.derived, hwired, hown, hdead, if_neg hsense, Bool.not_true, Bool.false_eq_true, if_false]
  cases e.holder <;> cases e.pending <;> simp

theorem Entry.sensed_of_derived {e : Entry} (h : e.derived = .peer ∨ e.derived = .office ∨ e.derived = .free) :
    e.Sensed := by
  unfold Entry.derived at h
  split at h
  · simp at h
  · next hwired =>
    split at h
    · simp at h
    · next hown =>
      split at h
      · simp at h
      · next hdead =>
        split at h
        · simp at h
        · next hsense => exact ⟨by simpa using hwired, by simpa using hown, by simpa using hdead, hsense⟩

theorem Entry.derived_peer_iff {e : Entry} : e.derived = .peer ↔ e.Sensed ∧ ¬ (e.holder = none ∧ e.pending = none) := by
  constructor
  · intro h
    have hs := Entry.sensed_of_derived (.inl h)
    refine ⟨hs, fun hn => ?_⟩
    rw [Entry.derived_of_sensed hs, if_pos hn] at h
    split at h <;> cases h
  · rintro ⟨hs, hn⟩
    rw [Entry.derived_of_sensed hs, if_neg hn]

theorem Entry.derived_office_iff {e : Entry} : e.derived = .office ↔
    (e.Sensed ∧ e.holder = none ∧ e.pending = none) ∧ e.sense = some .offHook := by
  constructor
  · intro h
    have hs := Entry.sensed_of_derived (.inr (.inl h))
    rw [Entry.derived_of_sensed hs] at h
    split at h
    · next hn =>
      split at h
      · next ho => exact ⟨⟨hs, hn⟩, ho⟩
      · cases h
    · cases h
  · rintro ⟨⟨hs, hn⟩, ho⟩
    rw [Entry.derived_of_sensed hs, if_pos hn, if_pos ho]

theorem Entry.derived_free_iff {e : Entry} : e.derived = .free ↔
    (e.Sensed ∧ e.holder = none ∧ e.pending = none) ∧ e.sense ≠ some .offHook := by
  constructor
  · intro h
    have hs := Entry.sensed_of_derived (.inr (.inr h))
    rw [Entry.derived_of_sensed hs] at h
    split at h
    · next hn =>
      split at h
      · cases h
      · next ho => exact ⟨⟨hs, hn⟩, ho⟩
    · cases h
  · rintro ⟨⟨hs, hn⟩, ho⟩
    rw [Entry.derived_of_sensed hs, if_pos hn, if_neg ho]

theorem keyToDisplace_iff {e : Entry} {key : Nat} : keyToDisplace e = some key ↔
    (∃ p, e.pending = some p ∧ p.key = key) ∨ e.pending = none ∧ ∃ h, e.holder = some h ∧ h.key = key := by
  unfold keyToDisplace
  split
  · next p hp => simp [hp]
  · next h hp hh => simp [hp, hh]
  · next hp hh => simp [hp, hh]

/-- What a claim of a class may displace (R99, tier 4). -/
theorem preemptable_iff {cls : Nat} {e : Entry} : preemptable cls e = true ↔
    ∃ key, keyToDisplace e = some key ∧ e.Sensed ∧ cls + 2 ≤ keyClass key := by
  unfold preemptable
  rw [Bool.and_eq_true, decide_eq_true_iff, Entry.derived_peer_iff]
  cases hkey : keyToDisplace e with
  | none => simp
  | some key =>
    have hheld : ¬ (e.holder = none ∧ e.pending = none) := fun hn => by
      rw [keyToDisplace, hn.1, hn.2] at hkey
      cases hkey
    simp [hheld]

section
variable {v : Four Entry} {solo : Bool} {cls : Nat} {k : LineId}

theorem firstFree_iff : firstFree v = some k ↔
    ((v.get k).derived = .free ∧ (v.get k).trouble = false) ∧
    ∀ j, (v.get j).derived = .free ∧ (v.get j).trouble = false → (v.get k).score < (v.get j).score ∨
      (v.get k).score = (v.get j).score ∧ k.index ≤ j.index := by
  rw [firstFree, lowestScore_iff]
  simp only [Bool.and_eq_true, Bool.not_eq_true', decide_eq_true_eq]

theorem firstOffice_iff : firstOffice v cls = some k ↔
    (((v.get k).derived = .office ∧ cls ≤ 3) ∧ (v.get k).trouble = false) ∧
    ∀ j, ((v.get j).derived = .office ∧ cls ≤ 3) ∧ (v.get j).trouble = false → (v.get k).score < (v.get j).score ∨
      (v.get k).score = (v.get j).score ∧ k.index ≤ j.index := by
  rw [firstOffice, lowestScore_iff]
  simp only [Bool.and_eq_true, Bool.not_eq_true', decide_eq_true_eq]

theorem firstTroubled_iff : firstTroubled v = some k ↔
    ((v.get k).derived = .free ∧ (v.get k).trouble = true) ∧
    ∀ j, (v.get j).derived = .free ∧ (v.get j).trouble = true → (v.get k).score < (v.get j).score ∨
      (v.get k).score = (v.get j).score ∧ k.index ≤ j.index := by
  rw [firstTroubled, lowestScore_iff]
  simp only [Bool.and_eq_true, decide_eq_true_eq]

theorem firstFree_eq_none : firstFree v = none ↔ ∀ j, ¬ ((v.get j).derived = .free ∧ (v.get j).trouble = false) := by
  rw [firstFree, lowestScore_eq_none]
  simp only [Bool.and_eq_true, Bool.not_eq_true', decide_eq_true_eq]

theorem firstOffice_eq_none : firstOffice v cls = none ↔
    ∀ j, ¬ (((v.get j).derived = .office ∧ cls ≤ 3) ∧ (v.get j).trouble = false) := by
  rw [firstOffice, lowestScore_eq_none]
  simp only [Bool.and_eq_true, Bool.not_eq_true', decide_eq_true_eq]

theorem firstTroubled_eq_none : firstTroubled v = none ↔
    ∀ j, ¬ ((v.get j).derived = .free ∧ (v.get j).trouble = true) := by
  rw [firstTroubled, lowestScore_eq_none]
  simp only [Bool.and_eq_true, decide_eq_true_eq]

/-- A line whose key a claim of a class displaces outside solo mode. -/
def Displaces (v : Four Entry) (solo : Bool) (cls : Nat) (j : LineId) (key : Nat) : Prop :=
  (v.get j).Sensed ∧ solo = false ∧ cls + 2 ≤ keyClass key ∧ keyToDisplace (v.get j) = some key

theorem firstPeer_iff : firstPeer v solo cls = some k ↔ ∃ key, Displaces v solo cls k key ∧
    ∀ j other, Displaces v solo cls j other → other < key ∨ other = key ∧ k.index ≤ j.index := by
  unfold firstPeer
  cases solo with
  | true => simp [Displaces]
  | false =>
    have hpeer : ∀ j, preemptable cls (v.get j) = true ↔ ∃ key, Displaces v false cls j key := fun j => by
      rw [preemptable_iff]
      refine exists_congr fun key => ?_
      unfold Displaces
      tauto
    rw [if_neg Bool.false_ne_true, highestKey_iff, hpeer]
    constructor
    · rintro ⟨⟨key, hk⟩, hbest⟩
      refine ⟨key, hk, fun j other hj => ?_⟩
      have h := hbest j ((hpeer j).mpr ⟨other, hj⟩)
      rwa [hk.2.2.2, hj.2.2.2] at h
    · rintro ⟨key, hk, hbest⟩
      refine ⟨⟨key, hk⟩, fun j hj => ?_⟩
      obtain ⟨other, hj⟩ := (hpeer j).mp hj
      rw [hk.2.2.2, hj.2.2.2]
      exact hbest j other hj

theorem firstPeer_eq_none : firstPeer v solo cls = none ↔ ∀ j key, ¬ Displaces v solo cls j key := by
  unfold firstPeer
  cases solo with
  | true => simp [Displaces]
  | false =>
    rw [if_neg Bool.false_ne_true, highestKey_eq_none]
    refine forall_congr' fun j => ?_
    rw [preemptable_iff, not_exists]
    refine forall_congr' fun key => not_congr ?_
    unfold Displaces
    tauto

end

/-- The candidate line by Table 6-1. -/
theorem candidate_completes (v : Four Entry) (solo : Bool) (cls : Nat) (k : LineId) (tier : Tier) :
    let sensed := fun j => (v.get j).wired = true ∧ (v.get j).own = false ∧ (v.get j).dead = false ∧
      (v.get j).sense ≠ none
    let unclaimed := fun j => sensed j ∧ (v.get j).holder = none ∧ (v.get j).pending = none
    let free := fun j => unclaimed j ∧ (v.get j).sense ≠ some .offHook ∧ (v.get j).trouble = false
    let office := fun j => unclaimed j ∧ (v.get j).sense = some .offHook ∧ (v.get j).trouble = false ∧ cls ≤ 3
    let troubled := fun j => unclaimed j ∧ (v.get j).sense ≠ some .offHook ∧ (v.get j).trouble = true
    let displaces := fun j key => sensed j ∧ solo = false ∧ cls + 2 ≤ key / 1024 ∧
      ((∃ p, (v.get j).pending = some p ∧ p.key = key) ∨
        (v.get j).pending = none ∧ ∃ h, (v.get j).holder = some h ∧ h.key = key)
    let score := fun j => min 63 (8 * (v.get j).failures + (v.get j).occupancy / 4)
    let best := fun p : LineId → Prop => p k ∧ ∀ j, p j → score k < score j ∨ score k = score j ∧ k.index ≤ j.index
    let empty := fun p : LineId → Prop => ∀ j, ¬ p j
    (candidate v solo cls = some (k, tier) ↔
      (tier = .free ∧ best free) ∨ (tier = .office ∧ empty free ∧ best office) ∨
      (tier = .troubled ∧ empty free ∧ empty office ∧ best troubled) ∨
      (tier = (if (v.get k).pending = none then .overHolder else .overPending) ∧ empty free ∧ empty office ∧
        empty troubled ∧ ∃ key, displaces k key ∧
          ∀ j other, displaces j other → other < key ∨ other = key ∧ k.index ≤ j.index)) ∧
    (candidate v solo cls = none ↔
      empty free ∧ empty office ∧ empty troubled ∧ ∀ j key, ¬ displaces j key) := by
  intro sensed unclaimed free office troubled displaces score best empty
  have hfree : ∀ j, (v.get j).derived = .free ∧ (v.get j).trouble = false ↔ free j := fun j => by
    rw [Entry.derived_free_iff, and_assoc]
    rfl
  have hoffice : ∀ j, ((v.get j).derived = .office ∧ cls ≤ 3) ∧ (v.get j).trouble = false ↔ office j := fun j => by
    rw [Entry.derived_office_iff, and_assoc, and_assoc, and_comm (a := cls ≤ 3)]
    rfl
  have htroubled : ∀ j, (v.get j).derived = .free ∧ (v.get j).trouble = true ↔ troubled j := fun j => by
    rw [Entry.derived_free_iff, and_assoc]
    rfl
  have hdisplaces : ∀ j key, Displaces v solo cls j key ↔ displaces j key := fun j key => by
    rw [Displaces, keyToDisplace_iff]
    rfl
  have htier : tierOver (v.get k) = if (v.get k).pending = none then .overHolder else .overPending := by
    unfold tierOver
    cases (v.get k).pending <;> rfl
  rw [candidate_eq_some, candidate_eq_none, firstFree_eq_none, firstOffice_eq_none, firstTroubled_eq_none,
    firstPeer_eq_none, firstFree_iff, firstOffice_iff, firstTroubled_iff, firstPeer_iff, htier]
  simp only [hfree, hoffice, htroubled, hdisplaces]
  exact ⟨Iff.rfl, Iff.rfl⟩

/-! #### The end of the hang-up hold (R66, R100, R108, R140, R164) -/

/-- The lead does not look at the call (R27). -/
theorem State.lead_congr {s t : State} (hq : t.queue = s.queue) (ht : t.time = s.time) (hsolo : t.solo = s.solo)
    (hdial : t.canDial = s.canDial) : t.lead = s.lead := by
  have hmay : t.mayLead = s.mayLead := by
    funext r
    simp only [State.mayLead, State.mayCall, ht, hsolo, hdial]
  simp only [State.lead, hmay, hq, ht]

/-- Nor does the record that an offer would be made for (R146). -/
theorem State.offerable_congr {s t : State} (hq : t.queue = s.queue) (ht : t.time = s.time) (hsolo : t.solo = s.solo)
    (hdial : t.canDial = s.canDial) (hl : t.loader = s.loader) (hdead : t.view.allDead = s.view.allDead)
    (ho : t.carry.offer = s.carry.offer) : t.offerable = s.offerable := by
  have hdue : t.dueForOffer = s.dueForOffer := by
    funext r
    simp only [State.dueForOffer, State.cannotDial, ht, hdial, hl, hdead]
  simp only [State.offerable, State.firstDue, hdue, hq, ht, hsolo, hl, ho]

/-- A frame of a line's OBJECT withdrawn, or its abort held (R93, R108). -/
theorem Rbc.cancelled_objects (k : LineId) (b : Rbc) : b.cancelled (Marker.objects k) = { b with
    owed := b.owed.filter fun m => decide (m ≠ .object k)
    slots := (b.slots.filter fun x => decide (x.marker ≠ .object k) || x.sending).map fun x =>
      if x.marker = .object k then { x with abort := true } else x } := by
  have hobject : ∀ m, Marker.objects k m = decide (m = .object k) := fun m => by
    cases m <;> simp [Marker.objects]
  simp only [Rbc.cancelled, Rbc.withdraw, hobject, decide_eq_true_eq, Bool.not_and, Bool.not_not, decide_not]

/-- Settles O60: the choice tier by tier, and the state that the end of the hold leaves to the next choice. -/
theorem hangUpHoldEndCompletes : Obligations.HangUpHoldEndCompletes := by
  unfold Obligations.HangUpHoldEndCompletes
  refine ⟨candidate_completes, fun s k hk hstate htimer => ?_⟩
  intro made
  have hcleared : s.clearOwnFields k = { s with
      view := s.view.update k Entry.clearOwn
      rbc := s.rbc.cancelled (Marker.objects k) } := State.cancel_eq _ fun _ _ _ => rfl
  have hmade : (s.clearOwnFields k).enterIdle = made := by
    rw [hcleared, Rbc.cancelled_objects]
    rfl
  have hexec : exec .hangUpHoldEnd s = .next (s.settle made) := by
    change execHangUpHoldEnd s = _
    rw [execHangUpHoldEnd, hk]
    dsimp only
    rw [if_pos (State.timing_iff.mpr ⟨hstate, htimer⟩), hmade]
  have hwired : ∀ j, (made.entry j).wired = (s.entry j).wired := fun j => by
    by_cases hj : j = k
    · rw [hj]
      exact (congrArg Entry.wired (Four.get_set_same s.view.entries k (s.entry k).others) :)
    · exact congrArg Entry.wired (Four.get_set_other _ _ hj)
  have hdial : made.canDial = s.canDial := State.canDial_congr hwired rfl rfl
  have hlead : made.lead = s.lead := State.lead_congr rfl rfl rfl hdial
  have hoffer : made.offerable = s.offerable := State.offerable_congr rfl rfl rfl hdial rfl rfl rfl
  refine ⟨s.settle made, hexec, State.settle_settled s made, fun hn => ?_, fun hn => ?_, fun r j tier _ hf ho hr hc => ?_⟩
  · rw [Bool.eq_false_iff]
    intro howes
    have hmarker := (State.settle_closed s made).owesOnly _ rfl howes
    rw [← hmade] at hmarker
    have hgone : ((s.clearOwnFields k).enterIdle).rbc.owes (.object k) = false :=
      State.cancel_gone (Marker.objects k) { s with view := s.view.update k Entry.clearOwn } _ (decide_eq_true rfl)
        (by exact hn)
    exact absurd (hmarker.symm.trans hgone) (by decide)
  · have hrest : made.Resting := .inr (.inr fun r hr => by rw [hlead, hn] at hr; cases hr)
    exact hrest.settle_same s
  · exact State.settle_placed (s := made) rfl hf (hlead.trans hr) hc (hoffer.trans ho) s

end Sys2Proof.Machine

/-! ### Deliveries: KISSOFF_JUDGED and OUTCOME_RECEIVED (R10, R24, R34, R35, R38, R134, R135, R139, R151, R152) -/

namespace Sys2Proof.Machine

open Host

/-! #### The comm-fail indicator and the orders through the queue's operations (R20, R38) -/

namespace AlertQueue

@[simp] theorem createOrDisplace_commFail (q : AlertQueue) (now : Nat) (e : Event) :
    (q.createOrDisplace now e).commFail = q.commFail := by
  unfold createOrDisplace
  split
  · rfl
  · split <;> rfl

@[simp] theorem takeEvent_commFail (q : AlertQueue) (now : Nat) (e : Event) :
    (q.takeEvent now e).1.commFail = q.commFail := by
  unfold takeEvent
  split
  · simp
  · split
    · rfl
    · split
      · split
        · rfl
        · simp
      · simp

@[simp] theorem afterDeparture_commFail (q : AlertQueue) (now : Nat) : (q.afterDeparture now).commFail = q.commFail := by
  unfold afterDeparture
  split <;> simp

@[simp] theorem admitEvent_commFail (q : AlertQueue) (now : Nat) (e : Event) :
    (q.admitEvent now e).commFail = q.commFail := by
  unfold admitEvent
  split <;> simp

@[simp] theorem depart_commFail (q : AlertQueue) (now order : Nat) : (q.depart now order).commFail = q.commFail :=
  afterDeparture_commFail (q.remove order) now

@[simp] theorem giveBack_commFail (q : AlertQueue) (now order : Nat) : (q.giveBack now order).commFail = q.commFail := by
  unfold giveBack
  split
  · rfl
  · split
    · rfl
    · exact afterDeparture_commFail _ now

/-- What each giving back keeps, the return of all the records in a call keeps. -/
theorem giveBackAll_induct {P : AlertQueue → Prop} {now : Nat} (hback : ∀ q order, P q → P (q.giveBack now order))
    {q : AlertQueue} (h : P q) : P (q.giveBackAll now) := by
  unfold giveBackAll
  generalize q.inCall = l
  induction l generalizing q with
  | nil => exact h
  | cons x rest ih => exact ih (hback q x.order h)

theorem RecordsFrom.giveBack (q : AlertQueue) (now order : Nat) :
    RecordsFrom Record.order q (q.giveBack now order) := by
  unfold AlertQueue.giveBack
  split
  · exact refl q
  · split
    · exact modify q _ fun _ => ⟨rfl, rfl⟩
    · next w _ =>
      refine RecordsFrom.trans ?_ (afterDeparture (fun _ => rfl) _ now)
      exact (remove q w.order).trans (modify _ _ fun _ => ⟨rfl, rfl⟩)

/-- With no record in a call, none goes back. -/
theorem NoneInCall.giveBackAll {q : AlertQueue} (h : q.NoneInCall) (now : Nat) : q.giveBackAll now = q := by
  have hnil : q.inCall = [] := List.filter_eq_nil_iff.mpr fun r hr => by simpa using h r hr
  rw [AlertQueue.giveBackAll, hnil]
  rfl

theorem NoneInCall.noJoinDue {q : AlertQueue} (h : q.NoneInCall) : q.NoJoinDue := fun x hx hs => absurd hs (h x hx)

end AlertQueue

/-! #### What a hang-up does to the queue (R139) -/

section
variable {s : State}

theorem State.raiseAll_induct {P : AlertQueue → Prop} {events : List Event}
    (hadmit : ∀ q, ∀ e ∈ events, P q → P (q.admitEvent s.time e)) (h : P s.queue) : P (s.raiseAll events).queue := by
  induction events generalizing s with
  | nil => exact h
  | cons e rest ih =>
    refine ih (s := s.raise e) (fun q e' he' hq => ?_) ?_
    · rw [State.raise_time]
      exact hadmit q e' (List.mem_cons_of_mem _ he') hq
    · rw [State.raise_eq]
      dsimp only
      split
      · exact h
      · exact hadmit _ e List.mem_cons_self h

theorem State.refreshTrouble_induct {P : AlertQueue → Prop}
    (hadmit : ∀ q, ∀ e ∈ s.troubleEvents, P q → P (q.admitEvent s.time e)) (h : P s.queue) : P s.refreshTrouble.queue :=
  State.raiseAll_induct hadmit h

/-- A hang-up accounts, gives the records back, owes the RELEASE, and raises the events (R139). -/
theorem State.hangUp_raises {k : LineId} (hk : s.call.line = some k) (o : CallOutcome) : ∃ u : State,
    s.hangUp o = (u.raiseAll ((s.releaseLine o).account k o).2).refreshTrouble ∧
    u.queue = ((s.releaseLine o).account k o).1.queue.giveBackAll s.time ∧
    u.carry = ((s.releaseLine o).account k o).1.carry ∧ u.time = s.time ∧ u.loader = s.loader ∧
    ∀ j, (u.entry j).trouble = (s.entry j).trouble := by
  have hkeeps := State.account_keeps k o (s.releaseLine o)
  have htrouble : ∀ j, (((s.releaseLine o).account k o).1.entry j).trouble = (s.entry j).trouble := fun j => by
    rw [hkeeps]
    simp only [State.entry, State.releaseLine_view]
    split
    · rw [LineView.get_update]
      split <;> rfl
    · rfl
  refine ⟨if s.solo then { ((s.releaseLine o).account k o).1 with
      queue := ((s.releaseLine o).account k o).1.queue.giveBackAll s.time }
    else State.oweRelease k o.reason { ((s.releaseLine o).account k o).1 with
      queue := ((s.releaseLine o).account k o).1.queue.giveBackAll s.time }, ?_, ?_⟩
  · unfold State.hangUp
    rw [hk]
  · split
    all_goals exact ⟨rfl, rfl, (congrArg State.time hkeeps :), (congrArg State.loader hkeeps :), htrouble⟩

/-- What the returns and the admission of events keep, a hang-up that counts nothing keeps. -/
theorem State.hangUp_induct {k : LineId} (hk : s.call.line = some k) {o : CallOutcome}
    (ho : ((s.releaseLine o).account k o) = (s.releaseLine o, [])) {P : AlertQueue → Prop}
    (hadmit : ∀ q e, P q → P (q.admitEvent s.time e)) (hback : ∀ q order, P q → P (q.giveBack s.time order))
    (h : P s.queue) : P (s.hangUp o).queue ∧ (s.hangUp o).carry = s.carry := by
  obtain ⟨u, hu, hqueue, hcarry, htime, _⟩ := State.hangUp_raises hk o
  rw [ho] at hu hqueue hcarry
  have hup : P u.queue := hqueue ▸ AlertQueue.giveBackAll_induct hback h
  rw [hu]
  refine ⟨State.refreshTrouble_induct (s := u) (fun q e _ hq => ?_) hup, ?_⟩
  · rw [htime]
    exact hadmit q e hq
  · exact (State.refreshTrouble_carry u).trans hcarry

/-- A hang-up that leaves F leaves every flag that was right (R70). -/
theorem State.HungUp.sameFlags {k : LineId} {o : CallOutcome} {t : State} (h : State.HungUp k o s t)
    (hright : s.FlagsRight) (ho : o.kind ≠ .lineCaused) (j : LineId) : (t.entry j).trouble = (s.entry j).trouble := by
  have hfailures : (t.entry j).failures = (s.entry j).failures := by
    by_cases hj : j = k
    · rw [hj, h.failures, if_neg ho]
    · exact h.otherLines j hj
  have hwired := h.field Entry.wired (fun _ _ _ => rfl) j
  have hdead := h.field Entry.dead (fun _ _ _ => rfl) j
  rw [Bool.eq_iff_iff, h.trouble j, hright j, h.loader, Entry.Troubled, Entry.Troubled, hfailures, hwired, hdead]

/-- With no record in a call and no flag to move, a hang-up that counts nothing leaves the queue. -/
theorem State.HungUp.sameQueue {k : LineId} {o : CallOutcome} {t : State} (h : State.HungUp k o s t)
    (hq : s.queue.Sound) (hn : s.queue.NoneInCall) (hright : s.FlagsRight)
    (ho : o.kind ≠ .lineCaused ∧ o.kind ≠ .centreCaused) : t.queue.SameButStates s.queue := by
  refine (h.quiet hq hn.noJoinDue ho.2 fun j => h.sameFlags hright ho.1 j).trans ⟨rfl, ?_⟩
  rw [State.queueAtEnd, List.map_map]
  refine List.map_congr_left fun x _ => ?_
  simp only [Function.comp, Record.still, ho.1, false_and, if_false]

end

/-! #### A record delivered (R34, R35, R38) -/

/-- The queue after a delivery: the record gone, the indicator clear, and its clearing event where it was set. -/
def AlertQueue.afterDelivery (r : Record) (now : Nat) (fault : Bool) (q : AlertQueue) : AlertQueue :=
  if q.commFail = true ∧ fault = false then (q.deliver now r).admitEvent now ⟨96, .comm, .cleared, 5⟩
  else q.deliver now r

/-- The Carry Unit after a delivery: the origin of a carried record that is no orphan is owed its OUTCOME. -/
def CarryUnit.afterDelivery (r : Record) (c : CarryUnit) : CarryUnit :=
  match r.kind with
  | .carried p => if p.orphaned then c else c.addOutcome p.origin p.originSeq .delivered
  | .own _ => c

theorem State.deliver_eq (r : Record) (s : State) : s.deliver r = { s with
    queue := s.queue.afterDelivery r s.time s.loader.configFault
    carry := s.carry.afterDelivery r } := by
  have hremoved : s.deliver r = if s.queue.commFail then State.raise commCleared { s with
      queue := s.queue.deliver s.time r, carry := s.carry.afterDelivery r }
    else { s with queue := s.queue.deliver s.time r, carry := s.carry.afterDelivery r } := by
    unfold State.deliver CarryUnit.afterDelivery
    cases r.kind <;> rfl
  rw [hremoved, AlertQueue.afterDelivery]
  by_cases hfail : s.queue.commFail = true
  · rw [if_pos hfail, State.raise_eq]
    by_cases hfault : s.loader.configFault = true
    · simp only [hfault, if_true, Bool.true_eq_false, and_false, if_false]
    · simp only [Bool.not_eq_true _ ▸ hfault, hfail, Bool.false_eq_true, if_false, and_self, if_true, commCleared]
  · simp only [hfail, Bool.false_eq_true, if_false, false_and]

theorem AlertQueue.afterDelivery_commFail (r : Record) (now : Nat) (fault : Bool) (q : AlertQueue) :
    (q.afterDelivery r now fault).commFail = false := by
  unfold AlertQueue.afterDelivery
  split <;> simp [AlertQueue.deliver]

theorem AlertQueue.Sound.afterDelivery {q : AlertQueue} (h : q.Sound) (r : Record) (now : Nat) (fault : Bool) :
    (q.afterDelivery r now fault).Sound := by
  unfold AlertQueue.afterDelivery
  split
  · exact (h.deliver now r).admitEvent now _
  · exact h.deliver now r

theorem AlertQueue.deliver_from (q : AlertQueue) (r : Record) (now : Nat) :
    AlertQueue.RecordsFrom Record.order q (q.deliver now r) :=
  AlertQueue.RecordsFrom.trans (.of_records (p := { q with
    commFail := false, queueOverflow := q.overflowAfterDelivery r }) rfl rfl) (.depart (fun _ => rfl) _ now r.order)

theorem AlertQueue.afterDelivery_from (q : AlertQueue) (r : Record) (now : Nat) (fault : Bool) :
    AlertQueue.RecordsFrom Record.order q (q.afterDelivery r now fault) := by
  unfold AlertQueue.afterDelivery
  split
  · exact (q.deliver_from r now).trans (.admitEvent (fun _ => rfl) _ now _)
  · exact q.deliver_from r now

theorem AlertQueue.Sound.afterDelivery_gone {q : AlertQueue} (h : q.Sound) {r : Record} (hr : r ∈ q.records) (now : Nat)
    (fault : Bool) : ∀ x ∈ (q.afterDelivery r now fault).records, x.order ≠ r.order := by
  have hgone : ∀ x ∈ (q.deliver now r).records, x.order ≠ r.order := by
    rw [h.deliver_eq hr now]
    exact h.depart_gone hr now
  unfold AlertQueue.afterDelivery
  split
  · exact (AlertQueue.RecordsFrom.admitEvent (name := Record.order) (fun _ => rfl) _ now _).gone hgone
      ((h.ordered.2 r hr).trans_le (q.deliver_from r now).admissions)
  · exact hgone

theorem AlertQueue.afterDelivery_noneInCall {q : AlertQueue} {r : Record} (h : ∀ x ∈ q.records, x.state = .inCall → x = r)
    (now : Nat) (fault : Bool) : (q.afterDelivery r now fault).NoneInCall := by
  have hremoved : (q.remove r.order).NoneInCall := fun x hx hs => by
    obtain ⟨hmem, hne⟩ := List.mem_filter.mp hx
    exact of_decide_eq_true hne (congrArg Record.order (h x hmem hs))
  have hdelivered : (q.deliver now r).NoneInCall :=
    NoNewCalls.none (noNewCalls_afterDeparture now _) (by exact hremoved)
  unfold AlertQueue.afterDelivery
  split
  · exact NoNewCalls.none (noNewCalls_admitEvent now _ _) hdelivered
  · exact hdelivered

theorem CarryUnit.addOutcome_mem (origin : Nat) (seq : Byte) (result : Result) (c : CarryUnit) :
    ⟨origin, seq, result, false⟩ ∈ (c.addOutcome origin seq result).outcomes := by
  by_cases hn : ∀ x ∈ c.outcomes, x.isTwin origin seq = false
  · rw [CarryUnit.addOutcome_appends hn]
    simp
  · obtain ⟨x, hx⟩ := not_forall.mp hn
    obtain ⟨hx, hne⟩ := Classical.not_imp.mp hx
    obtain ⟨before, e, after, hc, he, hb⟩ :=
      exists_first (p := OutcomeEntry.isTwin origin seq) ⟨x, hx, by simpa using hne⟩
    rw [CarryUnit.addOutcome_replaces hc he hb]
    simp

/-- An OUTCOME owed is so through the end of the step (R157). -/
theorem State.Settled.outcome_mem {u t : State} (h : State.Settled u t) {e : OutcomeEntry} (he : e ∈ u.carry.outcomes) :
    ∃ x ∈ t.carry.outcomes, x.still = e.still :=
  List.mem_map.mp (h.outcomes ▸ List.mem_map_of_mem he)

/-! #### KISSOFF_JUDGED (R134, R135) -/

section
variable {s : State} {k : LineId}

theorem State.afterDelivery_induct (hk : s.call.line = some k) {P : AlertQueue → Prop}
    (hadmit : ∀ q e, P q → P (q.admitEvent s.time e)) (hback : ∀ q order, P q → P (q.giveBack s.time order))
    (hnext : ∀ q order, P q → P (q.modify order fun x => { x with state := .inCall })) (h : P s.queue) :
    P s.afterDelivery.queue ∧ s.afterDelivery.carry = s.carry := by
  unfold State.afterDelivery
  split
  · exact State.hangUp_induct hk rfl hadmit hback h
  · split
    · split
      · exact ⟨hnext _ _ h, rfl⟩
      · exact State.hangUp_induct hk rfl hadmit hback h
    · exact State.hangUp_induct hk rfl hadmit hback h

theorem State.afterDelivery_yields (h : s.call.yieldPending = true) : s.afterDelivery = s.hangUp .preempted := if_pos h

theorem State.afterDelivery_next {next : Record} (hy : s.call.yieldPending = false) (hb : s.call.batch < 6)
    (hn : firstOf s.time (s.queue.records.filter Record.waiting) = some next) : s.afterDelivery = s.takeNext next := by
  rw [State.afterDelivery, if_neg (by simp [hy]), if_pos hb, hn]

theorem State.afterDelivery_done (hy : s.call.yieldPending = false)
    (h : 6 ≤ s.call.batch ∨ s.queue.records.filter Record.waiting = []) : s.afterDelivery = s.hangUp .done := by
  rw [State.afterDelivery, if_neg (by simp [hy])]
  rcases h with h | h
  · exact if_neg (Nat.not_lt.mpr h)
  · split
    · rw [h]
      rfl
    · rfl

end

/-- Settles O57: the delivery, then the three ways the call goes on. -/
theorem kissoffDelivers : Obligations.KissoffDelivers := by
  unfold Obligations.KissoffDelivers
  intro s r k hq hr hk hstate htimer htone hbatch gone told delivered left
  have hmem := State.callInHand_mem hr
  have hqueue : s.queue.afterDelivery r s.time s.loader.configFault = told := rfl
  have hdelivered : s.carry.afterDelivery r = delivered.carry := by
    unfold CarryUnit.afterDelivery
    cases hkind : r.kind <;> simp only [delivered, hkind]
  have hmade : s.deliverInHand r = delivered := by
    have hcount : min 6 (s.call.batch + 1) = s.call.batch + 1 := by omega
    unfold State.deliverInHand
    rw [State.deliver_eq, hcount, hdelivered]
    rfl
  have hexec : exec .kissoffJudged s = .next (s.settle delivered.afterDelivery) := by
    have hguard : (s.timing .kissoff .kissoffWait && decide (s.tone.cls = .kissoff)) = true := by
      rw [State.timing_iff.mpr ⟨hstate, htimer⟩, htone]
      rfl
    change execKissoffJudged s = _
    simp only [execKissoffJudged, hr, if_pos hguard, hmade]
  have hsound : told.Sound := hq.afterDelivery r s.time s.loader.configFault
  have hgone : ∀ x ∈ told.records, x.order ≠ r.order := hq.afterDelivery_gone hmem s.time s.loader.configFault
  have hline : delivered.call.line = some k := hk
  obtain ⟨⟨hcomm, hfrom⟩, hcarry⟩ := State.afterDelivery_induct hline
    (P := fun q => q.commFail = false ∧ AlertQueue.RecordsFrom Record.order told q)
    (fun q e h => ⟨(q.admitEvent_commFail s.time e).trans h.1, h.2.trans (.admitEvent (fun _ => rfl) q s.time e)⟩)
    (fun q order h => ⟨(q.giveBack_commFail s.time order).trans h.1, h.2.trans (.giveBack q s.time order)⟩)
    (fun q order h => ⟨h.1, h.2.trans (.modify q order fun _ => ⟨rfl, rfl⟩)⟩)
    ⟨AlertQueue.afterDelivery_commFail r s.time _ s.queue, .refl told⟩
  have hset := State.settle_settled s delivered.afterDelivery
  have horder : r.order < told.admissions :=
    (hq.ordered.2 r hmem).trans_le (s.queue.afterDelivery_from r s.time s.loader.configFault).admissions
  have hhung : ∀ o, delivered.afterDelivery = delivered.hangUp o →
      State.HungUp k o delivered (s.settle delivered.afterDelivery) := fun o ho => by
    rw [ho]
    exact State.settle_hungUp hline o s
  refine ⟨s.settle delivered.afterDelivery, hexec, ?_, hset.gone (hfrom.gone hgone horder), fun c hc horphan => ?_,
    fun hone hright => ?_, fun hy => ?_, fun next hy hb hn => ?_, fun hy hb => ?_⟩
  · exact (congrArg AlertQueue.commFail hset.queue :).trans hcomm
  · have howed : ⟨c.origin, c.originSeq, .delivered, false⟩ ∈ delivered.afterDelivery.carry.outcomes := by
      rw [hcarry, ← hdelivered]
      simp only [CarryUnit.afterDelivery, hc, horphan, Bool.false_eq_true, if_false]
      exact CarryUnit.addOutcome_mem _ _ _ _
    obtain ⟨e, he, hstill⟩ := hset.outcome_mem howed
    exact ⟨e, he, congrArg OutcomeEntry.origin hstill, congrArg OutcomeEntry.seq hstill, congrArg OutcomeEntry.result hstill⟩
  · have hnone : told.NoneInCall := AlertQueue.afterDelivery_noneInCall hone s.time s.loader.configFault
    have hends : ∀ o, o.kind ≠ .lineCaused ∧ o.kind ≠ .centreCaused → delivered.afterDelivery = delivered.hangUp o →
        (s.settle delivered.afterDelivery).queue.SameButStates told := fun o hkind ho =>
      (hhung o ho).sameQueue hsound hnone hright hkind
    have hkinds : (CallOutcome.preempted.kind ≠ .lineCaused ∧ CallOutcome.preempted.kind ≠ .centreCaused) ∧
        CallOutcome.done.kind ≠ .lineCaused ∧ CallOutcome.done.kind ≠ .centreCaused := by decide
    cases hy : s.call.yieldPending with
    | true => exact hends .preempted hkinds.1 (State.afterDelivery_yields hy)
    | false =>
      by_cases hb : s.call.batch < 5
      · cases hn : firstOf s.time left with
        | none => exact hends .done hkinds.2 (State.afterDelivery_done hy (.inr (firstOf_eq_none hn)))
        | some next =>
          have hnext : delivered.afterDelivery = delivered.takeNext next :=
            State.afterDelivery_next hy (Nat.succ_lt_succ hb) hn
          refine hset.sameButStates.trans ?_
          rw [hnext]
          refine ⟨rfl, ?_⟩
          simp only [State.takeNext, AlertQueue.modify, List.map_map]
          refine List.map_congr_left fun x _ => ?_
          simp only [Function.comp]
          split <;> rfl
      · exact hends .done hkinds.2 (State.afterDelivery_done hy (.inl (Nat.succ_le_succ (Nat.not_lt.mp hb))))
  · exact hhung .preempted (State.afterDelivery_yields hy)
  · have hnext : delivered.afterDelivery = delivered.takeNext next :=
      State.afterDelivery_next hy (Nat.succ_lt_succ hb) hn
    have hbusy : delivered.afterDelivery.call.state ≠ .idle := by
      rw [hnext]
      exact fun h => absurd (hstate.symm.trans h) (by decide)
    have hwaits : next ∈ told.records := (List.mem_filter.mp (firstOf_mem hn)).1
    refine ⟨(State.settle_closed s _).records ?_ _ ?_ (by simp), ?_, ?_⟩
    · rw [hnext]
      exact (hsound.modify next.order (f := fun x => { x with state := .inCall }) fun _ _ _ => rfl).ordered.1
    · rw [hnext]
      exact List.mem_map.mpr ⟨next, hwaits, if_pos rfl⟩
    · exact hset.tone.trans (congrArg State.tone hnext :)
    · exact (hset.call hbusy).1.trans (congrArg State.call hnext :)
  · refine hhung .done (State.afterDelivery_done hy (hb.imp_left fun h => ?_))
    exact (congrArg Nat.succ h :).ge

end Sys2Proof.Machine

/-! ### OUTCOME received (R10, R35, R38, R146, R151, R152) -/

namespace Sys2Proof.Machine

open Host

/-! #### The outstanding offer at the end of a step (R146, R147) -/

/-- An offer outstanding, if any, is owed and of a record OFFERED now. -/
def State.OfferedNow (now : Nat) (s : State) : Prop := ∀ o, s.carry.offer = some o → o.phase = .owed ∧
  ∃ x ∈ s.queue.records, x.hasSeq o.seq = true ∧ x.state = .offered now

section
variable {s t : State} {now : Nat}

theorem State.OfferedNow.of_none (h : s.carry.offer = none) : s.OfferedNow now := fun o ho => by
  rw [h] at ho
  cases ho

theorem State.OfferedNow.closed (h : s.OfferedNow now) (hc : State.Closed s t)
    (hn : (s.queue.records.map Record.order).Nodup) (ho : t.carry.offer = s.carry.offer) : t.OfferedNow now := fun o hto => by
  obtain ⟨hphase, x, hx, hseq, hstate⟩ := h o (ho ▸ hto)
  exact ⟨hphase, x, hc.records hn x hx (by simp [hstate]), hseq, hstate⟩

theorem State.makeOffer_offered (h : s.carry.offer = none) : s.makeOffer.OfferedNow s.time := by
  cases hr : s.offerable with
  | none => rw [State.makeOffer_of_none hr]; exact .of_none h
  | some r =>
    cases hk : r.kind with
    | carried c =>
      have hsame : s.makeOffer = s := by simp only [State.makeOffer, hr, hk]
      rw [hsame]
      exact .of_none h
    | own o =>
      rw [State.makeOffer_eq hr hk]
      intro new hnew
      obtain rfl := Option.some.inj hnew
      refine ⟨rfl, { r with state := .offered s.time }, ?_, ?_, rfl⟩
      · exact List.mem_map.mpr ⟨r, (State.offerable_mem hr).1, if_pos rfl⟩
      · simp [Record.hasSeq, hk]

theorem State.chooseAndOffer_offered (h : s.carry.offer = none) (hn : (s.queue.records.map Record.order).Nodup) :
    s.chooseAndOffer.OfferedNow s.time := by
  have hchosen : ∀ u : State, u.carry.offer = none → u.choose.makeOffer.OfferedNow u.time := fun u hu => by
    have hoffer : u.choose.carry.offer = none := by rw [State.choose_carry, hu]
    rw [← State.choose_time u]
    exact State.makeOffer_offered hoffer
  unfold State.chooseAndOffer
  split
  · dsimp only
    split
    · have hmade : State.OfferedNow s.time (State.makeOffer { s with free := s.free + 1 }) :=
        State.makeOffer_offered (s := { s with free := s.free + 1 }) h
      refine hmade.closed (State.choose_closed _) ?_ (by rw [State.choose_carry])
      rw [(State.makeOffer_closed _).orders]
      exact hn
    · exact hchosen { s with free := s.free + 1 } h
  · exact hchosen s h

/-- An offer outstanding after a step that left none was made at its end. -/
theorem State.settle_offered (h : s.carry.offer = none) (hn : (s.queue.records.map Record.order).Nodup) (before : State) :
    (before.settle s).OfferedNow s.time := by
  have hchecked := State.checkAccept_closed before s
  have hoffer : (before.checkAccept s).carry.offer = none := by rw [State.checkAccept_offer, h]
  have horders : ((before.checkAccept s).queue.records.map Record.order).Nodup := by rw [hchecked.orders]; exact hn
  have hmade : (before.checkAccept s).chooseAndOffer.OfferedNow s.time := by
    rw [← State.checkAccept_time s before]
    exact State.chooseAndOffer_offered hoffer horders
  refine hmade.closed (State.settleFrames_closed before _) ?_ (State.settleFrames_framesOnly before _).sameOffer
  rw [(State.chooseAndOffer_closed _).orders]
  exact horders

/-! #### The offer ended (R151) -/

theorem State.endOffer_eq {o : Offer} (ho : s.carry.offer = some o) : ∃ b : Rbc, s.endOffer = { s with
    carry := { s.carry with offer := none }
    rbc := b } ∧
    (s.rbc.sendingSlot = none → (o.phase = .owed → b.owes (.offer o.seq o.key) = false) ∧
      ∀ acceptor, o.phase = .carrying acceptor → b.owes (.carry o.seq acceptor) = false) := by
  have hcancel : ∀ p : Marker → Bool, (∀ origin seq result, p (.outcome origin seq result) = false) →
      State.cancel p { s with carry := { s.carry with offer := none } } = { s with
        carry := { s.carry with offer := none }
        rbc := s.rbc.cancelled p } := fun p hp => State.cancel_eq _ hp
  have hgone : ∀ (p : Marker → Bool) (m : Marker), p m = true → s.rbc.sendingSlot = none →
      (s.rbc.cancelled p).owes m = false := fun p m hm hn => State.cancel_gone p s m hm hn
  unfold State.endOffer
  rw [ho]
  dsimp only
  cases hphase : o.phase with
  | owed =>
    refine ⟨_, hcancel _ fun _ _ _ => rfl, fun hn => ⟨fun _ => hgone _ _ (decide_eq_true rfl) hn, fun a ha => ?_⟩⟩
    cases ha
  | window =>
    refine ⟨s.rbc, rfl, fun _ => ⟨fun h => ?_, fun a ha => ?_⟩⟩
    · cases h
    · cases ha
  | carrying acceptor =>
    refine ⟨_, hcancel _ fun _ _ _ => rfl, fun hn => ⟨fun h => ?_, fun a ha => ?_⟩⟩
    · cases h
    · cases ha
      exact hgone _ _ (decide_eq_true rfl) hn

/-- An OFFER owed no more is not owed by the end of the step, unless the offer is made again (R147). -/
theorem State.settle_noOffer {seq : Byte} {key : Nat} (h : s.rbc.owes (.offer seq key) = false) (before : State)
    (ho : (before.settle s).carry.offer ≠ some ⟨seq, key, .owed⟩) : (before.settle s).rbc.owes (.offer seq key) = false := by
  have hmore := (State.settle_settled before s).noMore (.offer seq key)
  have hnone : State.owedAtEnd s (before.settle s) (.offer seq key) = 0 := if_neg fun h => ho h.2
  rw [hnone, (State.toSend_eq_zero_iff fun _ _ _ => Marker.noConfusion).mpr h] at hmore
  exact (State.toSend_eq_zero_iff fun _ _ _ => Marker.noConfusion).mp (Nat.le_zero.mp hmore)

end

/-! #### OUTCOME_RECEIVED (R152) -/

theorem exec_outcomeReceived {value : BitVec 13} {payload : BitVec 24} {acked : Bool} {f : OutcomeFields} {s : State}
    (hhears : s.Hears value) (hread : readOutcome value payload = some f) :
    exec (.outcomeReceived value payload acked) s =
      .next (State.settle (s.heard (receivedFrame .outcome value payload) acked)
        ((s.heard (receivedFrame .outcome value payload) acked).takeOutcome f)) := by
  change execOutcomeReceived value payload s acked = _
  unfold execOutcomeReceived
  rw [hread, State.receiveFrame_of_hears hhears]

section
variable {f : OutcomeFields} {s : State} {r : Record}

theorem State.takeOutcome_elsewhere (h : f.origin ≠ s.address ∨ s.queue.findSeq f.seq = none) : s.takeOutcome f = s := by
  unfold State.takeOutcome
  split
  · next ha =>
    rw [h.resolve_left fun hne => hne ha]
  · rfl

theorem State.takeOutcome_delivered (ha : f.origin = s.address) (hr : s.queue.findSeq f.seq = some r)
    (hf : f.result = .delivered) : s.takeOutcome f = s.outcomeDelivered r := by
  simp only [State.takeOutcome, if_pos ha, hr, hf]

theorem State.takeOutcome_returned (ha : f.origin = s.address) (hr : s.queue.findSeq f.seq = some r)
    (hf : f.result = .returned) : s.takeOutcome f = s.outcomeReturned f.sender r := by
  simp only [State.takeOutcome, if_pos ha, hr, hf]

/-- A record delivered by its carrier leaves the queue as at a delivery, whatever its state but IN_CALL (R151). -/
theorem State.outcomeDelivered_queue (hr : r.state ≠ .inCall) : (s.outcomeDelivered r).queue =
    s.queue.afterDelivery r s.time s.loader.configFault := by
  have hdeliver : ∀ u : State, (u.deliver r).queue = u.queue.afterDelivery r u.time u.loader.configFault := fun u =>
    congrArg State.queue (State.deliver_eq r u)
  unfold State.outcomeDelivered
  split
  · next h => exact absurd h hr
  · exact hdeliver s
  · exact hdeliver s
  · rw [hdeliver, State.endOffer_queue, State.endOffer_time, State.endOffer_loader]

theorem State.outcomeReturned_carrier {carrier since : Nat} (hr : r.state = .handed carrier since) :
    s.outcomeReturned carrier r = { s with queue :=
      (s.queue.modify r.order fun x => { x with notBefore := s.time }).giveBack s.time r.order } := by
  simp only [State.outcomeReturned, hr, if_true]

theorem State.outcomeReturned_other {sender : Nat} (hr : ∀ since, r.state ≠ .handed sender since) :
    s.outcomeReturned sender r = s := by
  unfold State.outcomeReturned
  split
  · next carrier since h => exact if_neg fun hc : carrier = sender => hr since (hc ▸ h)
  all_goals rfl

end

theorem CarryUnit.afterDelivery_offer (r : Record) (c : CarryUnit) : (c.afterDelivery r).offer = c.offer := by
  unfold CarryUnit.afterDelivery
  split
  · split
    · rfl
    · exact CarryUnit.addOutcome_offer _ _ _ _
  · rfl

/-- Settles O47: the OUTCOME by its result and the state of the record it names. -/
theorem outcomeReceivedCompletes : Obligations.OutcomeReceivedCompletes := by
  unfold Obligations.OutcomeReceivedCompletes
  intro value payload acked f s hhears hq hread heard
  have hset := State.settle_settled heard (heard.takeOutcome f)
  refine ⟨heard.settle (heard.takeOutcome f), exec_outcomeReceived hhears hread,
    fun h => hset.of_eq (State.takeOutcome_elsewhere h), fun r ha hr => ⟨fun hf hc => ?_, fun hf hc => ?_,
    fun hf hn => ?_, fun hf hh => ?_⟩⟩
  · refine hset.of_eq ((State.takeOutcome_delivered (s := heard) ha hr hf).trans ?_)
    simp only [State.outcomeDelivered, hc]
  · have hmem := (AlertQueue.findSeq_mem hr).1
    have hmade : heard.takeOutcome f = heard.outcomeDelivered r := State.takeOutcome_delivered (s := heard) ha hr hf
    have hqueue : (heard.takeOutcome f).queue = s.queue.afterDelivery r s.time s.loader.configFault := by
      rw [hmade]
      exact State.outcomeDelivered_queue hc
    have hsame := hset.sameButStates
    have hgone : ∀ x ∈ (heard.takeOutcome f).queue.records, x.order ≠ r.order := by
      rw [hqueue]
      exact hq.afterDelivery_gone hmem s.time s.loader.configFault
    have hleft := hset.gone hgone
    rw [hqueue] at hsame
    refine ⟨hsame, (congrArg AlertQueue.commFail hsame.rest :).trans (AlertQueue.afterDelivery_commFail _ _ _ _), hleft,
      fun o since hstate ho hseq => ?_⟩
    obtain ⟨b, hended, hfree⟩ := State.endOffer_eq (s := heard) (o := o) ho
    have hoffered : heard.takeOutcome f = heard.endOffer.deliver r := by
      rw [hmade]
      simp only [State.outcomeDelivered, hstate]
    have hnone : (heard.takeOutcome f).carry.offer = none := by
      rw [hoffered, State.deliver_eq, hended]
      exact CarryUnit.afterDelivery_offer _ _
    have hrbc : (heard.takeOutcome f).rbc = b := by
      rw [hoffered, State.deliver_rbc, hended]
    have hnodup : ((heard.takeOutcome f).queue.records.map Record.order).Nodup := by
      rw [hqueue]
      exact (hq.afterDelivery r s.time s.loader.configFault).ordered.1
    have htime : (heard.takeOutcome f).time = s.time := by
      rw [hoffered, State.deliver_time, State.endOffer_time]
      rfl
    refine ⟨fun new hnew => ?_, fun hsending => ?_⟩
    · obtain ⟨hphase, x, hx, hxseq, hxstate⟩ := State.settle_offered hnone hnodup heard new hnew
      exact ⟨hphase, x, hx, hleft x hx, hxseq, hxstate.trans (congrArg _ htime)⟩
    · obtain ⟨hoffer, hcarry⟩ := hfree ((State.heard_noSending _ acked s).trans hsending)
      refine ⟨fun hphase hnot => ?_, fun acceptor hphase => ?_⟩
      · refine State.settle_noOffer (hrbc ▸ hoffer hphase) heard fun hsome => hnot (hsome.trans ?_)
        rw [← hphase]
      · rw [Bool.eq_false_iff]
        intro howes
        have hmarker := (State.settle_closed heard (heard.takeOutcome f)).owesOnly _ rfl howes
        rw [hrbc, hcarry acceptor hphase] at hmarker
        cases hmarker
  · exact hset.of_eq ((State.takeOutcome_returned (s := heard) ha hr hf).trans (State.outcomeReturned_other hn))
  · obtain ⟨since, hstate⟩ := hh
    exact hset.of_eq ((State.takeOutcome_returned (s := heard) ha hr hf).trans (State.outcomeReturned_carrier hstate))

end Sys2Proof.Machine

/-! ### What a failed call counts against its record (R10, R31, R36 to R38, R50, R51, R139, R141, R142, Table 3-7) -/

namespace Sys2Proof.Machine

open Host

/-! #### The accounting of a centre-caused failure (R36, R37, R142) -/

/-- A record with one more attempt counted, its number index turned, and held back by its retry gap. -/
def Record.failedAt (now : Nat) (r : Record) : Record := { r with
  attempts := State.raisedAttempts r
  second := !r.second
  notBefore := now + retryGap (State.raisedAttempts r) r.cls }

/-- The attempts reach M. -/
def State.lastAttempt (r : Record) (s : State) : Bool := decide (s.loader.settings.maxAttempts ≤ State.raisedAttempts r)

section
variable {s : State} {r : Record}

theorem State.accountCentre_eq (hr : s.callInHand = some r) : s.accountCentre =
    State.checkAttempts (r.failedAt s.time)
      { s with queue := s.queue.modify r.order fun _ => r.failedAt s.time } := by
  simp only [State.accountCentre, hr]
  rfl

theorem State.checkAttempts_carried {p : CarriedPart} (hr : r.kind = .carried p) (s : State) :
    s.checkAttempts r =
      if s.loader.settings.maxAttempts ≤ r.attempts ∧ 3 ≤ r.cls then
        ({ s with
          queue := s.queue.depart s.time r.order
          carry := if p.orphaned then s.carry else s.carry.addOutcome p.origin p.originSeq .returned }, [])
      else (s, []) := by
  unfold State.checkAttempts
  rw [hr]
  by_cases hm : s.loader.settings.maxAttempts ≤ r.attempts <;> by_cases hc : 3 ≤ r.cls <;> simp only [hm, hc] <;> rfl

theorem Record.isOwn_eq_false {p : CarriedPart} (hr : r.kind = .carried p) : r.isOwn = false := by
  simp only [Record.isOwn, hr]

/-- A record below M or of class 0 to 2 stays, counted; an own one at M sets the indicator. -/
theorem State.accountCentre_stays (hr : s.callInHand = some r) (h : r.cls ≤ 2 ∨ s.lastAttempt r = false) :
    s.accountCentre = ({ s with queue := { s.queue.modify r.order (fun _ => r.failedAt s.time) with
        commFail := s.queue.commFail || r.isOwn && s.lastAttempt r } },
      if r.isOwn && s.lastAttempt r && !s.queue.commFail then [commNew] else []) := by
  rw [State.accountCentre_eq hr]
  cases hkind : r.kind with
  | own o =>
    have hown : r.isOwn = true := Record.isOwn_iff.mpr ⟨o, hkind⟩
    rw [State.checkAttempts_own (r := r.failedAt s.time) (o := o) hkind, hown]
    by_cases hm : s.loader.settings.maxAttempts ≤ State.raisedAttempts r
    · have hlast : s.lastAttempt r = true := decide_eq_true hm
      have hlow : ¬ 3 ≤ r.cls := by
        have := h.resolve_right (by rw [hlast]; decide)
        omega
      rw [if_pos (by exact hm), if_neg (by exact hlow), hlast, Bool.and_self, Bool.or_true, Bool.true_and]
      rfl
    · have hlast : s.lastAttempt r = false := decide_eq_false hm
      rw [if_neg (by exact hm), hlast, Bool.and_false, Bool.or_false]
      rfl
  | carried p =>
    have hnot : ¬ (s.loader.settings.maxAttempts ≤ State.raisedAttempts r ∧ 3 ≤ r.cls) := fun ⟨hm, hc⟩ => by
      rcases h with h | h
      · omega
      · exact absurd (h.symm.trans (decide_eq_true hm)) Bool.false_ne_true
    rw [State.checkAttempts_carried (r := r.failedAt s.time) (p := p) hkind, if_neg (by exact hnot),
      Record.isOwn_eq_false hkind, Bool.false_and, Bool.or_false]
    rfl

/-- The Carry Unit after a carried record has left at M: its origin is owed the OUTCOME, unless it is an orphan. -/
def CarryUnit.afterFailure (r : Record) (c : CarryUnit) : CarryUnit :=
  match r.kind with
  | .carried p => if p.orphaned then c else c.addOutcome p.origin p.originSeq .returned
  | .own _ => c

/-- A record of class 3 to 6 at M leaves. -/
theorem State.accountCentre_leaves (hr : s.callInHand = some r) (hcls : 3 ≤ r.cls) (hlast : s.lastAttempt r = true) :
    s.accountCentre = ({ s with
        queue := AlertQueue.depart s.time r.order { s.queue with commFail := s.queue.commFail || r.isOwn }
        carry := s.carry.afterFailure r },
      if r.isOwn && decide (r.source ≠ 96) then [commNew] else []) := by
  have hm : s.loader.settings.maxAttempts ≤ State.raisedAttempts r := of_decide_eq_true hlast
  have hdepart : ∀ q : AlertQueue, (q.modify r.order fun _ => r.failedAt s.time).depart s.time r.order =
      q.depart s.time r.order := fun q => q.depart_modify s.time r.order fun _ h => h ▸ rfl
  rw [State.accountCentre_eq hr]
  cases hkind : r.kind with
  | own o =>
    rw [State.checkAttempts_own (r := r.failedAt s.time) (o := o) hkind, if_pos (by exact hm), if_pos (by exact hcls),
      Record.isOwn_iff.mpr ⟨o, hkind⟩, Bool.or_true, Bool.true_and]
    have hleft := hdepart { s.queue with commFail := true }
    simp only [CarryUnit.afterFailure, hkind]
    rw [← hleft]
    rfl
  | carried p =>
    rw [State.checkAttempts_carried (r := r.failedAt s.time) (p := p) hkind, if_pos (by exact ⟨hm, hcls⟩),
      Record.isOwn_eq_false hkind, Bool.or_false, Bool.false_and]
    simp only [CarryUnit.afterFailure, hkind]
    rw [← hdepart s.queue]
    rfl

end

/-! #### The commands of a failure (R128, R129, R132, R136) -/

/-- A centre-caused failure, by its command. -/
theorem State.Fails.of_centre {s : State} {c : Instr} {r : Record} (hr : s.callInHand = some r)
    (hc : (c = .busyCadence ∧ s.call.state = .handshake ∧ s.call.timer = some .handshakeWait ∧ s.tone.busyCycles = 3) ∨
      (c = .handshakeWaitExpiry ∧ s.call.state = .handshake ∧ s.call.timer = some .handshakeWait) ∨
      (c = .kissoffWaitExpiry ∧ s.call.state = .kissoff ∧ s.call.timer = some .kissoffWait ∧ 4 ≤ s.call.sends)) :
    ∃ o tone, s.Fails c o { s with tone := tone } ∧ o.kind = .centreCaused := by
  rcases hc with ⟨rfl, hs, ht, hb⟩ | ⟨rfl, hs, ht⟩ | ⟨rfl, hs, ht, h4⟩
  · exact ⟨.centreBusy, _, .centreBusy hs ht hb, rfl⟩
  · exact ⟨.noHandshake, s.tone, .noHandshake hs ht, rfl⟩
  · exact ⟨.noKissoff, s.tone, .noKissoff hs ht h4 (by rw [hr]; rfl), rfl⟩

/-- A line-caused failure, by its command. -/
theorem State.Fails.of_line {s : State} {c : Instr}
    (hc : (c = .dialToneWaitExpiry ∧ s.call.state = .seize ∧ s.call.timer = some .dialToneWait) ∨
      (c = .lineLostTimerExpiry ∧ s.call.lineLost = true)) :
    ∃ o, s.Fails c o s ∧ o.kind = .lineCaused := by
  rcases hc with ⟨rfl, hs, ht⟩ | ⟨rfl, hl⟩
  · exact ⟨.noDialTone, .noDialTone hs ht, rfl⟩
  · exact ⟨.lineLost, .lineLost hl, rfl⟩

theorem State.account_centre {k : LineId} {o : CallOutcome} (ho : o.kind = .centreCaused) (s : State) :
    s.account k o = s.accountCentre := by
  simp only [State.account, ho]

/-! #### A record that no event of a failure touches (R28, R29, R31) -/

namespace AlertQueue

variable {q : AlertQueue} {r : Record}

theorem createOrDisplace_keeps (hq : q.Sound) (hr : r ∈ q.records) {e : Event} (hroom : r.cls ≤ e.cls ∨ q.count < 24)
    (now : Nat) : r ∈ (q.createOrDisplace now e).records := by
  unfold createOrDisplace
  split
  · exact List.mem_append_left _ hr
  · next hfull =>
    split
    · next v hv =>
      obtain ⟨hmem, -, -, -, hcls⟩ := victim_spec hv
      have hne : r ≠ v := fun h => by
        have := hroom.resolve_right hfull
        rw [h] at this
        omega
      exact List.mem_append_left _ (List.mem_filter.mpr ⟨hr, decide_eq_true fun h => hne ((hq.eq_of_order hr hmem).mp h)⟩)
    · exact hr

theorem createOrDisplace_count (now : Nat) (e : Event) : (q.createOrDisplace now e).count ≤ q.count + 1 := by
  have hcreate : ∀ p : AlertQueue, (p.create now e).count = p.count + 1 := fun p => List.length_append
  unfold createOrDisplace
  split
  · exact (hcreate q).le
  · split
    · next v _ =>
      refine (hcreate _).le.trans (Nat.succ_le_succ ?_)
      exact List.length_filter_le _ _
    · exact Nat.le_succ _

/-- A record that an event does not report is left, with room for a new one (R28, R29, R31). -/
theorem takeEvent_keeps (hq : q.Sound) (hr : r ∈ q.records) {e : Event} (hother : r.reports e.source e.condition = false)
    (hroom : r.cls ≤ e.cls ∨ q.count < 24) (now : Nat) : r ∈ (q.takeEvent now e).1.records := by
  have hne : ∀ w ∈ q.sameReports e, r.order ≠ w.order := fun w hw ho => by
    obtain ⟨hmem, -, hreports⟩ := mem_sameReports.mp hw
    rw [← (hq.eq_of_order hr hmem).mp ho, hother] at hreports
    cases hreports
  have hmodify : ∀ (p : AlertQueue) (w : Record) (f : Record → Record), r ∈ p.records → r.order ≠ w.order →
      r ∈ (p.modify w.order f).records := fun p w f hp hw => List.mem_map.mpr ⟨r, hp, if_neg hw⟩
  unfold takeEvent
  split
  · exact createOrDisplace_keeps hq hr hroom now
  · next latest hlatest =>
    have hl := hne latest (lastOf_mem hlatest)
    split
    · exact hmodify q latest _ hr hl
    · split
      · split
        · next twin htwin =>
          have ht := hne twin (List.mem_filter.mp (lastOf_mem htwin)).1
          exact hmodify _ twin _ (List.mem_filter.mpr ⟨hr, decide_eq_true hl⟩) ht
        · exact createOrDisplace_keeps hq hr hroom now
      · exact createOrDisplace_keeps hq hr hroom now

theorem modify_count (order : Nat) (f : Record → Record) : (q.modify order f).count = q.count := List.length_map _

/-- An event adds one record at most, and one that withdraws a record takes one away (R29). -/
theorem takeEvent_count (now : Nat) (e : Event) : (q.takeEvent now e).1.count ≤ q.count + 1 ∧
    ((q.takeEvent now e).2 = true → (q.takeEvent now e).1.count < q.count) := by
  unfold takeEvent
  split
  · exact ⟨createOrDisplace_count now e, fun h => by cases h⟩
  · next latest hlatest =>
    split
    · refine ⟨?_, fun h => by cases h⟩
      rw [modify_count]
      exact Nat.le_succ _
    · split
      · split
        · have hremoved := remove_count_lt (mem_sameReports.mp (lastOf_mem hlatest)).1
          rw [modify_count]
          exact ⟨hremoved.le.trans (Nat.le_succ _), fun _ => hremoved⟩
        · exact ⟨createOrDisplace_count now e, fun h => by cases h⟩
      · exact ⟨createOrDisplace_count now e, fun h => by cases h⟩

/-- A record stands in a queue with room for a number of events. -/
structure Holds (r : Record) (n : Nat) (q : AlertQueue) : Prop where
  sound : q.Sound
  mem : r ∈ q.records
  room : r.cls ≤ 4 ∨ q.count + n ≤ 24

theorem Holds.mono {m n : Nat} (h : q.Holds r n) (hm : m ≤ n) : q.Holds r m :=
  ⟨h.sound, h.mem, h.room.imp_right fun hroom => by omega⟩

/-- One event, of a line or of the comm-fail indicator, takes one place at most and leaves the record. -/
theorem Holds.admitEvent {n : Nat} (h : q.Holds r (n + 1)) {e : Event} (hcls : 4 ≤ e.cls)
    (hother : r.reports e.source e.condition = false) (hoverflow : r.reports 95 .overflow = false) (now : Nat) :
    (q.admitEvent now e).Holds r n := by
  obtain ⟨hcount, hwithdrawn⟩ := q.takeEvent_count now e
  have hroom : r.cls ≤ e.cls ∨ q.count < 24 := h.room.imp (fun hr => hr.trans hcls) fun hr => by omega
  have hkept := takeEvent_keeps h.sound h.mem hother hroom now
  refine ⟨h.sound.admitEvent now e, ?_, h.room.imp_right fun hr => ?_⟩
  · unfold AlertQueue.admitEvent AlertQueue.afterDeparture
    split
    · next hw =>
      split
      · exact takeEvent_keeps (h.sound.takeEvent now e) hkept hoverflow
          (.inr ((hwithdrawn hw).trans_le h.sound.bounded.1)) now
      · exact hkept
    · exact hkept
  · unfold AlertQueue.admitEvent AlertQueue.afterDeparture
    split
    · next hw =>
      have hless := hwithdrawn hw
      split
      · have hone := ((q.takeEvent now e).1.takeEvent_count now overflowEvent).1
        change ((q.takeEvent now e).1.takeEvent now overflowEvent).1.count + n ≤ 24
        omega
      · omega
    · omega

end AlertQueue

/-! #### The queue of a failed call (R24, R139) -/

section
variable {s : State} {k : LineId} {o : CallOutcome} {tone : Tone} {r : Record}

/-- The queue in which a failed call is counted against a record that stays. -/
def State.countedQueue (r : Record) (s : State) : AlertQueue :=
  { s.queue.modify r.order (fun _ => r.failedAt s.time) with commFail := s.queue.commFail || r.isOwn && s.lastAttempt r }

/-- A centre-caused failure of a record that stays: the record counted and given back, then the events. -/
theorem State.failure_stays (hk : s.call.line = some k) (ho : o.kind = .centreCaused) (hr : s.callInHand = some r)
    (h : r.cls ≤ 2 ∨ s.lastAttempt r = false) : ∃ u : State,
    State.hangUp o { s with tone := tone } =
      (u.raiseAll (if r.isOwn && s.lastAttempt r && !s.queue.commFail then [commNew] else [])).refreshTrouble ∧
    u.queue = (s.countedQueue r).giveBackAll s.time ∧ u.carry = s.carry ∧ u.time = s.time ∧ u.loader = s.loader ∧
    ∀ j, (u.entry j).trouble = (s.entry j).trouble := by
  obtain ⟨u, hu⟩ := State.hangUp_raises (s := { s with tone := tone }) hk o
  rw [State.account_centre ho, State.accountCentre_stays (s := State.releaseLine o { s with tone := tone }) hr h] at hu
  exact ⟨u, hu⟩

/-- A centre-caused failure of a record that leaves: its departure, the return of the others, then the events. -/
theorem State.failure_leaves (hk : s.call.line = some k) (ho : o.kind = .centreCaused) (hr : s.callInHand = some r)
    (hcls : 3 ≤ r.cls) (hlast : s.lastAttempt r = true) : ∃ u : State,
    State.hangUp o { s with tone := tone } =
      (u.raiseAll (if r.isOwn && decide (r.source ≠ 96) then [commNew] else [])).refreshTrouble ∧
    u.queue = (AlertQueue.depart s.time r.order
      { s.queue with commFail := s.queue.commFail || r.isOwn }).giveBackAll s.time ∧
    u.carry = s.carry.afterFailure r ∧ u.time = s.time ∧ u.loader = s.loader ∧
    ∀ j, (u.entry j).trouble = (s.entry j).trouble := by
  obtain ⟨u, hu⟩ := State.hangUp_raises (s := { s with tone := tone }) hk o
  rw [State.account_centre ho,
    State.accountCentre_leaves (s := State.releaseLine o { s with tone := tone }) hr hcls hlast] at hu
  exact ⟨u, hu⟩

theorem State.countedQueue_records (hq : s.queue.Sound) (hr : r ∈ s.queue.records) :
    s.countedQueue r = { s.queue with
      commFail := s.queue.commFail || r.isOwn && s.lastAttempt r
      records := s.queue.records.map fun x => if x = r then r.failedAt s.time else x } := by
  rw [State.countedQueue, hq.modify_eq hr]

theorem State.countedQueue_sound (hq : s.queue.Sound) (hr : r ∈ s.queue.records) : (s.countedQueue r).Sound :=
  (hq.replace hr (x := r.failedAt s.time) rfl).of_records ⟨rfl, rfl⟩

theorem State.countedQueue_noJoin (hq : s.queue.Sound) (hr : r ∈ s.queue.records)
    (hone : ∀ x ∈ s.queue.records, x.state = .inCall → x = r)
    (hjoin : 3 ≤ r.cls → ∀ x ∈ s.queue.records, x ≠ r → x.waiting = true → r.sameReport x = false) :
    (s.countedQueue r).NoJoinDue := by
  rw [State.countedQueue_records hq hr]
  refine AlertQueue.noJoinDue_of (r := r.failedAt s.time) (fun hcls x hx hne hw => ?_) fun x hx hs => ?_
  · obtain ⟨y, hy, rfl⟩ := List.mem_map.mp hx
    by_cases hyr : y = r
    · rw [if_pos hyr] at hne
      exact absurd rfl hne
    · rw [if_neg hyr] at hw ⊢
      exact hjoin hcls y hy hyr hw
  · obtain ⟨y, hy, rfl⟩ := List.mem_map.mp hx
    split
    · rfl
    · next hyr =>
      rw [if_neg hyr] at hs
      exact absurd (hone y hy hs) hyr

/-- The record given back, and the queue else as it was. -/
theorem State.countedQueue_returned (hq : s.queue.Sound) (hr : r ∈ s.queue.records)
    (hone : ∀ x ∈ s.queue.records, x.state = .inCall → x = r)
    (hjoin : 3 ≤ r.cls → ∀ x ∈ s.queue.records, x ≠ r → x.waiting = true → r.sameReport x = false) :
    (s.countedQueue r).giveBackAll s.time = { s.queue with
      commFail := s.queue.commFail || r.isOwn && s.lastAttempt r
      records := s.queue.records.map fun x => if x = r then { r.failedAt s.time with
        state := if r.state = .inCall then .waiting else r.state } else x } := by
  rw [giveBackAll_returned s.time _ (State.countedQueue_sound hq hr).ordered.1
    (State.countedQueue_noJoin hq hr hone hjoin), State.countedQueue_records hq hr]
  simp only [List.map_map]
  congr 1
  refine List.map_congr_left fun x hx => ?_
  simp only [Function.comp]
  by_cases hxr : x = r
  · simp only [if_pos hxr]
    rfl
  · simp only [if_neg hxr, if_neg (mt (hone x hx) hxr)]

/-- Where the failure moves no flag, only its own event is raised. -/
theorem State.hangUp_unflagged (hk : s.call.line = some k) (ho : o.kind = .centreCaused) (hright : s.FlagsRight)
    (hf : s.loader.configFault = false) {u : State} {told : Bool}
    (hu : State.hangUp o { s with tone := tone } = (u.raiseAll (if told then [commNew] else [])).refreshTrouble)
    (htime : u.time = s.time) (hloader : u.loader = s.loader) (hflags : ∀ j, (u.entry j).trouble = (s.entry j).trouble) :
    (State.hangUp o { s with tone := tone }).queue =
      if told = true then u.queue.admitEvent s.time ⟨96, .comm, .new, 4⟩ else u.queue := by
  have hung := State.hangUp_hungUp k o { s with tone := tone } hk
  have hkind : o.kind ≠ .lineCaused := by rw [ho]; decide
  have hquiet : ∀ j, ((State.hangUp o { s with tone := tone }).entry j).trouble = (s.entry j).trouble :=
    hung.sameFlags hright hkind
  rw [hu] at hquiet ⊢
  rw [State.refreshTrouble_quiet _ fun j => (hquiet j).trans ?_, State.raiseAll_commNew, hloader, hf, htime]
  · simp only [and_true]
  · rw [← hflags j, State.raiseAll_commNew]
    rfl

end

theorem retryGap_eq (n cls : Nat) : retryGap n cls =
    if cls ≤ 1 then (if n ≤ 2 then 7 else if n ≤ 4 then 22 else 45)
    else if n ≤ 2 then 15 else if n ≤ 4 then 45 else 90 := by
  unfold retryGap
  by_cases hc : cls ≤ 1 <;> simp only [hc, if_true, if_false]

/-- Of the whole queue, where the failure moves no trouble flag. -/
theorem failures_count_queue (s : State) (k : LineId) (r : Record) (c : Instr) (hq : s.queue.Sound)
    (hk : s.call.line = some k) (hr : s.callInHand = some r) (hstate : r.state = .inCall)
    (hone : ∀ x ∈ s.queue.records, x.state = .inCall → x = r)
    (hjoin : 3 ≤ r.cls → ∀ x ∈ s.queue.records, x ≠ r → x.waiting = true → r.sameReport x = false)
    (hright : s.FlagsRight) (hf : s.loader.configFault = false)
    (hc : (c = .busyCadence ∧ s.call.state = .handshake ∧ s.call.timer = some .handshakeWait ∧ s.tone.busyCycles = 3) ∨
      (c = .handshakeWaitExpiry ∧ s.call.state = .handshake ∧ s.call.timer = some .handshakeWait) ∨
      (c = .kissoffWaitExpiry ∧ s.call.state = .kissoff ∧ s.call.timer = some .kissoffWait ∧ 4 ≤ s.call.sends)) :
    let n := min 15 (r.attempts + 1)
    let last := decide (s.loader.settings.maxAttempts ≤ n)
    let gap := if r.cls ≤ 1 then (if n ≤ 2 then 7 else if n ≤ 4 then 22 else 45)
      else if n ≤ 2 then 15 else if n ≤ 4 then 45 else 90
    let counted : AlertQueue := { s.queue with commFail := s.queue.commFail || r.isOwn && last }
    let stays : AlertQueue := { counted with records := s.queue.records.map fun x => if x = r then { r with
      attempts := n
      second := !r.second
      notBefore := s.time + gap
      state := .waiting } else x }
    let leaves := counted.depart s.time r.order
    ∃ t, exec c s = .next t ∧
      (r.cls ≤ 2 ∨ last = false → t.queue.SameButStates (
        if r.isOwn = true ∧ last = true ∧ s.queue.commFail = false then stays.admitEvent s.time ⟨96, .comm, .new, 4⟩
        else stays)) ∧
      (3 ≤ r.cls → last = true → t.queue.SameButStates (
        if r.isOwn = true ∧ r.source ≠ 96 then leaves.admitEvent s.time ⟨96, .comm, .new, 4⟩ else leaves)) := by
  intro n last gap counted stays leaves
  have hmem := State.callInHand_mem hr
  obtain ⟨o, tone, hfails, ho⟩ := State.Fails.of_centre hr hc
  have hset := (State.settle_settled s (State.hangUp o { s with tone := tone })).sameButStates
  refine ⟨s.settle (State.hangUp o { s with tone := tone }), hfails.exec, fun h => ?_, fun hcls hlast => ?_⟩
  · obtain ⟨u, hu, hqueue, -, htime, hloader, hflags⟩ := State.failure_stays (tone := tone) hk ho hr h
    have hstays : u.queue = stays := by
      rw [hqueue, State.countedQueue_returned hq hmem hone hjoin, if_pos hstate]
      simp only [Record.failedAt, retryGap_eq]
      rfl
    rw [State.hangUp_unflagged hk ho hright hf hu htime hloader hflags, hstays] at hset
    simp only [Bool.and_eq_true, Bool.not_eq_true', and_assoc] at hset
    exact hset
  · obtain ⟨u, hu, hqueue, -, htime, hloader, hflags⟩ := State.failure_leaves (tone := tone) hk ho hr hcls hlast
    have hleaves : u.queue = leaves := by
      have hnone : leaves.NoneInCall :=
        NoNewCalls.none (noNewCalls_afterDeparture s.time _) fun x hx hs => by
          obtain ⟨hx, hne⟩ := List.mem_filter.mp hx
          exact of_decide_eq_true hne (congrArg Record.order (hone x hx hs))
      have hcounted : { s.queue with commFail := s.queue.commFail || r.isOwn } = counted := by
        simp only [counted, hlast, Bool.and_true]
      rw [hqueue, hcounted]
      exact hnone.giveBackAll s.time
    rw [State.hangUp_unflagged hk ho hright hf hu htime hloader hflags, hleaves] at hset
    simpa only [Bool.and_eq_true, decide_eq_true_eq] using hset

end Sys2Proof.Machine

/-! ### The record of a failed call through the events of the failure (R10, R31, R36 to R38, R139, R141, R142) -/

namespace Sys2Proof.Machine

open Host

/-! #### The events that a failure may raise (R9, R10) -/

/-- A trouble event or the comm NEW event, by what of it a record may be touched by. -/
def Event.OfFailure (e : Event) : Prop := (e.condition = .line ∨ e.condition = .comm) ∧ 4 ≤ e.cls

/-- A record of no condition whose event a failure may raise. -/
def Record.Untold (r : Record) : Prop := ∀ o, r.kind = .own o → o.condition ∉ [.line, .comm, .overflow]

theorem Record.Untold.reports {r : Record} (h : r.Untold) (source : Nat) {condition : Condition}
    (hc : condition ∈ [.line, .comm, .overflow]) : r.reports source condition = false := by
  unfold Record.reports
  split
  · next o ho => exact decide_eq_false fun hboth => h o ho (hboth.2 ▸ hc)
  · rfl

theorem commNew_ofFailure : commNew.OfFailure := ⟨.inr rfl, Nat.le_refl _⟩

theorem arrange_length (fuel free : Nat) (events : List Event) : (arrange fuel free events).length ≤ events.length := by
  induction fuel generalizing free events with
  | zero => exact Nat.le_refl _
  | succ fuel ih =>
    unfold arrange
    split
    · exact Nat.le_refl _
    · next e he =>
      have hlt := (List.getElem?_eq_some_iff.mp he).1
      have := ih (free + 1) (events.eraseIdx (Config.eventOrder free % events.length))
      rw [List.length_eraseIdx_of_lt hlt] at this
      rw [List.length_cons]
      omega

theorem arrange_subset (fuel free : Nat) (events : List Event) : ∀ e ∈ arrange fuel free events, e ∈ events := by
  induction fuel generalizing free events with
  | zero => exact fun e he => he
  | succ fuel ih =>
    unfold arrange
    split
    · exact fun e he => he
    · next first hfirst =>
      intro e he
      rcases List.mem_cons.mp he with rfl | he
      · exact List.mem_of_getElem? hfirst
      · exact List.mem_of_mem_eraseIdx (ih _ _ e he)

/-- One event to a line at most (R9). -/
theorem State.troubleEvents_spec (s : State) : s.troubleEvents.length ≤ 4 ∧ ∀ e ∈ s.troubleEvents, e.OfFailure := by
  have hlength : (s.troubleChanges.map fun k =>
      lineEvent k ((s.entry k).inTrouble s.loader.settings.lineThreshold)).length ≤ 4 := by
    rw [List.length_map]
    exact List.length_filter_le _ LineId.all
  have hevents : ∀ e ∈ s.troubleChanges.map fun k =>
      lineEvent k ((s.entry k).inTrouble s.loader.settings.lineThreshold), e.OfFailure := fun e he => by
    obtain ⟨k, -, rfl⟩ := List.mem_map.mp he
    unfold lineEvent
    split
    · exact ⟨.inl rfl, Nat.le_refl _⟩
    · exact ⟨.inl rfl, Nat.le_succ _⟩
  unfold State.troubleEvents
  dsimp only
  split
  · exact ⟨(arrange_length _ _ _).trans hlength, fun e he => hevents e (arrange_subset _ _ _ e he)⟩
  · exact ⟨hlength, hevents⟩

section
variable {u : State} {r : Record} {events : List Event}

/-- A record is left by as many events as its queue has room for. -/
theorem State.raiseAll_holds (hr : r.Untold) (hevents : ∀ e ∈ events, e.OfFailure) {n : Nat}
    (h : u.queue.Holds r (events.length + n)) : (u.raiseAll events).queue.Holds r n := by
  induction events generalizing u with
  | nil => exact h.mono (Nat.le_add_left _ _)
  | cons e rest ih =>
    refine ih (u := u.raise e) (fun e' he' => hevents e' (List.mem_cons_of_mem _ he')) ?_
    have hroom : u.queue.Holds r (rest.length + n + 1) := h.mono (by rw [List.length_cons]; omega)
    obtain ⟨hcondition, hcls⟩ := hevents e List.mem_cons_self
    rw [State.raise_eq]
    dsimp only
    split
    · exact hroom.mono (Nat.le_succ _)
    · refine hroom.admitEvent hcls (hr.reports _ ?_) (hr.reports _ (by decide)) _
      rcases hcondition with hc | hc <;> rw [hc] <;> decide

/-- The events of a failure, five at most, leave the record. -/
theorem State.failureEvents_hold (hr : r.Untold) (hevents : ∀ e ∈ events, e.OfFailure) (hone : events.length ≤ 1)
    (h : u.queue.Holds r 5) : r ∈ (u.raiseAll events).refreshTrouble.queue.records := by
  obtain ⟨hlength, htrouble⟩ := (u.raiseAll events).troubleEvents_spec
  have hraised : (u.raiseAll events).queue.Holds r 4 := State.raiseAll_holds hr hevents (h.mono (by omega))
  unfold State.refreshTrouble
  exact (State.raiseAll_holds (n := 0) hr htrouble (by exact hraised.mono hlength)).mem

/-- What the admission of events keeps, the events of a failure keep. -/
theorem State.failureEvents_induct {P : AlertQueue → Prop} (hadmit : ∀ q e, P q → P (q.admitEvent u.time e))
    (h : P u.queue) : P (u.raiseAll events).refreshTrouble.queue := by
  refine State.refreshTrouble_induct (fun q e _ hq => ?_) (State.raiseAll_induct (fun q e _ hq => hadmit q e hq) h)
  rw [State.raiseAll_time]
  exact hadmit q e hq

theorem State.failureEvents_carry : (u.raiseAll events).refreshTrouble.carry = u.carry := by
  rw [State.refreshTrouble_carry, State.raiseAll_carry]

end

/-- A record left by the command stands in the queue at the end of the step, but for its state. -/
theorem State.Settled.record_mem {u t : State} (h : State.Settled u t) {r : Record} (hr : r ∈ u.queue.records) :
    ∃ x ∈ t.queue.records, x.still = r.still :=
  List.mem_map.mp (h.records ▸ List.mem_map_of_mem hr)

/-! #### A line-caused failure (R51, R141) -/

section
variable {s : State} {k : LineId} {o : CallOutcome} {r : Record}

/-- A line-caused failure: the queue as the outcome leaves it, then the trouble events. -/
theorem State.failure_line (hk : s.call.line = some k) (ho : o.kind = .lineCaused) (hq : s.queue.Sound)
    (hj : s.queue.NoJoinDue) : ∃ u : State, s.hangUp o = (u.raiseAll []).refreshTrouble ∧
      u.queue = s.queueAtEnd o ∧ u.time = s.time := by
  have hkind : o.kind ≠ .centreCaused := by rw [ho]; decide
  obtain ⟨u, hu, hqueue, -, htime, -⟩ := State.hangUp_raises hk o
  rw [(State.account_quiet k o (s.releaseLine o) hkind).1] at hu
  exact ⟨u, hu, hqueue.trans (State.returns_queueAtEnd k o s hq.ordered.1 hj hkind), htime⟩

theorem State.queueAtEnd_sound (hq : s.queue.Sound) (o : CallOutcome) : (s.queueAtEnd o).Sound :=
  hq.map (f := fun x => { x with
    state := if x.state = .inCall then .waiting else x.state
    notBefore := if o.kind = .lineCaused ∧ s.call.lead = some x.order then s.time + 5 else x.notBefore })
    (fun _ _ => rfl) ⟨rfl, rfl⟩

theorem State.callLead_order (h : s.callLead = some r) : s.call.lead = some r.order ∧ r ∈ s.queue.records := by
  unfold State.callLead at h
  split at h
  · next order hlead =>
    obtain ⟨hmem, horder⟩ := AlertQueue.find_mem h
    exact ⟨hlead.trans (congrArg some horder.symm), hmem⟩
  · cases h

/-- With the lead delivered no record is held back. -/
theorem State.queueAtEnd_from (h : s.callLead = none) (o : CallOutcome) :
    AlertQueue.RecordsFrom (fun x => (x.notBefore, x.attempts)) s.queue (s.queueAtEnd o) := by
  refine ⟨fun x hx => ?_, Nat.le_refl _⟩
  obtain ⟨y, hy, rfl⟩ := List.mem_map.mp hx
  have hlead : s.call.lead ≠ some y.order := fun hlead => by
    have hfind := List.find?_eq_none.mp (show s.queue.find y.order = none by
      rw [State.callLead, hlead] at h
      exact h) y hy
    exact hfind (decide_eq_true rfl)
  refine .inl ⟨y, hy, rfl, ?_⟩
  rw [if_neg fun hboth => hlead hboth.2]

end

theorem lineFailures_count (s : State) (k : LineId) (r : Record) (c : Instr) (hq : s.queue.Sound) (hk : s.call.line = some k)
    (hone : ∀ x ∈ s.queue.records, x.state = .inCall → x = r)
    (hjoin : 3 ≤ r.cls → ∀ x ∈ s.queue.records, x ≠ r → x.waiting = true → r.sameReport x = false) (hr : r.Untold)
    (hroom : r.cls ≤ 4 ∨ s.queue.count ≤ 19)
    (hc : (c = .dialToneWaitExpiry ∧ s.call.state = .seize ∧ s.call.timer = some .dialToneWait) ∨
      (c = .lineLostTimerExpiry ∧ s.call.lineLost = true)) :
    ∃ t, exec c s = .next t ∧
      (s.callLead = some r →
        ∃ x ∈ t.queue.records, x.still = { r with notBefore := s.time + 5, state := .waiting }) ∧
      (s.callLead = none → ∀ x ∈ t.queue.records, s.queue.admissions ≤ x.order ∨
        ∃ y ∈ s.queue.records, y.order = x.order ∧ y.notBefore = x.notBefore ∧ y.attempts = x.attempts) := by
  obtain ⟨o, hfails, ho⟩ := State.Fails.of_line hc
  obtain ⟨u, hu, hqueue, htime⟩ := State.failure_line hk ho hq (AlertQueue.noJoinDue_of hjoin hone)
  have hset := State.settle_settled s (s.hangUp o)
  refine ⟨s.settle (s.hangUp o), hfails.exec, fun hlead => ?_, fun hlead x hx => ?_⟩
  · obtain ⟨horder, hmem⟩ := State.callLead_order hlead
    have hheld : { r with
        state := if r.state = .inCall then .waiting else r.state
        notBefore := s.time + 5 } ∈ u.queue.records := by
      rw [hqueue]
      refine List.mem_map.mpr ⟨r, hmem, ?_⟩
      rw [if_pos (⟨ho, horder⟩ : o.kind = .lineCaused ∧ s.call.lead = some r.order)]
    have hholds : u.queue.Holds { r with
        state := if r.state = .inCall then .waiting else r.state
        notBefore := s.time + 5 } 5 := by
      refine ⟨hqueue ▸ State.queueAtEnd_sound hq o, hheld, hroom.imp_right fun hcount => ?_⟩
      have hsame : u.queue.count = s.queue.count := by
        rw [hqueue]
        exact List.length_map _
      omega
    have hleft := State.failureEvents_hold (events := []) (by exact hr) (fun e he => by cases he) (Nat.zero_le _) hholds
    rw [← hu] at hleft
    exact hset.record_mem hleft
  · have hfrom : AlertQueue.RecordsFrom (fun x => (x.notBefore, x.attempts)) s.queue (s.hangUp o).queue := by
      rw [hu]
      exact State.failureEvents_induct (fun q e h => h.trans (.admitEvent (fun _ => rfl) q _ e))
        (hqueue ▸ State.queueAtEnd_from hlead o)
    have hstill : x.still ∈ (s.hangUp o).queue.records.map Record.still := hset.records ▸ List.mem_map_of_mem hx
    obtain ⟨y, hy, hyx⟩ := List.mem_map.mp hstill
    have horder : y.order = x.order := (congrArg Record.order hyx :)
    rcases hfrom.records y hy with ⟨z, hz, hzo, hzn⟩ | hnew
    · refine .inr ⟨z, hz, hzo.trans horder, (congrArg Prod.fst hzn).trans (congrArg Record.notBefore hyx :),
        (congrArg Prod.snd hzn).trans (congrArg Record.attempts hyx :)⟩
    · exact .inl (horder ▸ hnew)

/-! #### A centre-caused failure (R36, R37, R142) -/

theorem centreFailures_count (s : State) (k : LineId) (r : Record) (c : Instr) (hq : s.queue.Sound)
    (hk : s.call.line = some k) (hone : ∀ x ∈ s.queue.records, x.state = .inCall → x = r)
    (hjoin : 3 ≤ r.cls → ∀ x ∈ s.queue.records, x ≠ r → x.waiting = true → r.sameReport x = false) (hr : r.Untold)
    (hroom : r.cls ≤ 4 ∨ s.queue.count ≤ 19)
    (hc : (c = .busyCadence ∧ s.call.state = .handshake ∧ s.call.timer = some .handshakeWait ∧ s.tone.busyCycles = 3) ∨
      (c = .handshakeWaitExpiry ∧ s.call.state = .handshake ∧ s.call.timer = some .handshakeWait) ∨
      (c = .kissoffWaitExpiry ∧ s.call.state = .kissoff ∧ s.call.timer = some .kissoffWait ∧ 4 ≤ s.call.sends))
    (hhand : s.callInHand = some r) :
    let last := s.loader.settings.maxAttempts ≤ min 15 (r.attempts + 1)
    ∃ t, exec c s = .next t ∧
      (r.cls ≤ 2 ∨ ¬ last →
        t.carry.outcomes.map OutcomeEntry.still = s.carry.outcomes.map OutcomeEntry.still ∧
        ∃ x ∈ t.queue.records, x.still = { r with
          attempts := min 15 (r.attempts + 1)
          second := !r.second
          notBefore := s.time + retryGap (min 15 (r.attempts + 1)) r.cls
          state := .waiting }) ∧
      (∀ o, r.kind = .own o → t.queue.commFail = (s.queue.commFail || decide last)) ∧
      (∀ p, r.kind = .carried p → t.queue.commFail = s.queue.commFail) ∧
      (3 ≤ r.cls → last →
        (∀ x ∈ t.queue.records, x.order ≠ r.order) ∧
        (∀ p, r.kind = .carried p →
          (p.orphaned = false → ∃ e ∈ t.carry.outcomes, e.still = ⟨p.origin, p.originSeq, .returned, false⟩) ∧
          (p.orphaned = true → t.carry.outcomes.map OutcomeEntry.still = s.carry.outcomes.map OutcomeEntry.still))) := by
  intro last
  have hmem := State.callInHand_mem hhand
  obtain ⟨o, tone, hfails, ho⟩ := State.Fails.of_centre hhand hc
  have hset := State.settle_settled s (State.hangUp o { s with tone := tone })
  have hstays : r.cls ≤ 2 ∨ ¬ last → r.cls ≤ 2 ∨ s.lastAttempt r = false := Or.imp_right decide_eq_false
  have hcomm : (State.hangUp o { s with tone := tone }).queue.commFail = (s.queue.commFail || r.isOwn && s.lastAttempt r) := by
    by_cases h : r.cls ≤ 2 ∨ s.lastAttempt r = false
    · obtain ⟨u, hu, hqueue, -⟩ := State.failure_stays (tone := tone) hk ho hhand h
      rw [hu]
      refine State.failureEvents_induct (fun q e hq => (q.admitEvent_commFail _ e).trans hq) ?_
      rw [hqueue]
      exact AlertQueue.giveBackAll_induct (fun q order hq => (q.giveBack_commFail _ order).trans hq) rfl
    · obtain ⟨hcls, hlast⟩ := not_or.mp h
      have hlast : s.lastAttempt r = true := by simpa using hlast
      obtain ⟨u, hu, hqueue, -⟩ := State.failure_leaves (tone := tone) hk ho hhand (Nat.not_le.mp hcls) hlast
      rw [hu, hlast, Bool.and_true]
      refine State.failureEvents_induct (fun q e hq => (q.admitEvent_commFail _ e).trans hq) ?_
      rw [hqueue]
      refine AlertQueue.giveBackAll_induct (fun q order hq => (q.giveBack_commFail _ order).trans hq) ?_
      exact AlertQueue.depart_commFail _ _ _
  have hleft : (s.settle (State.hangUp o { s with tone := tone })).queue.commFail =
      (s.queue.commFail || r.isOwn && s.lastAttempt r) := (congrArg AlertQueue.commFail hset.queue :).trans hcomm
  refine ⟨s.settle (State.hangUp o { s with tone := tone }), hfails.exec, fun h => ?_, fun own hkind => ?_,
    fun p hkind => ?_, fun hcls hlast => ?_⟩
  · obtain ⟨u, hu, hqueue, hcarry, -⟩ := State.failure_stays (tone := tone) hk ho hhand (hstays h)
    have hreturned := State.countedQueue_returned hq hmem hone hjoin
    refine ⟨?_, ?_⟩
    · rw [hset.outcomes, hu, State.failureEvents_carry, hcarry]
    · have hgiven : { r.failedAt s.time with
          state := if r.state = .inCall then .waiting else r.state } ∈ u.queue.records := by
        rw [hqueue, hreturned]
        exact List.mem_map.mpr ⟨r, hmem, if_pos rfl⟩
      have hholds : u.queue.Holds { r.failedAt s.time with
          state := if r.state = .inCall then .waiting else r.state } 5 := by
        refine ⟨?_, hgiven, hroom.imp_right fun hcount => ?_⟩
        · rw [hqueue]
          exact (State.countedQueue_sound hq hmem).giveBackAll s.time
        · have hsame : u.queue.count = s.queue.count := by
            rw [hqueue, hreturned]
            exact List.length_map _
          omega
      have hkept := State.failureEvents_hold
        (events := if r.isOwn && s.lastAttempt r && !s.queue.commFail then [commNew] else []) (by exact hr) (fun e he => ?_)
        (by split <;> simp) hholds
      · rw [← hu] at hkept
        exact hset.record_mem hkept
      · split at he
        · rw [List.mem_singleton.mp he]
          exact commNew_ofFailure
        · cases he
  · rw [hleft, Record.isOwn_iff.mpr ⟨own, hkind⟩, Bool.true_and]
    rfl
  · rw [hleft, Record.isOwn_eq_false hkind, Bool.false_and, Bool.or_false]
  · obtain ⟨u, hu, hqueue, hcarry, -⟩ := State.failure_leaves (tone := tone) hk ho hhand hcls (decide_eq_true hlast)
    have hmade : (State.hangUp o { s with tone := tone }).carry = s.carry.afterFailure r := by
      rw [hu, State.failureEvents_carry, hcarry]
    refine ⟨hset.gone ?_, fun p hkind => ⟨fun horphan => ?_, fun horphan => ?_⟩⟩
    · have hfrom : AlertQueue.RecordsFrom Record.order
          (AlertQueue.depart s.time r.order { s.queue with commFail := s.queue.commFail || r.isOwn })
          (State.hangUp o { s with tone := tone }).queue := by
        rw [hu]
        refine State.failureEvents_induct (fun q e h => h.trans (.admitEvent (fun _ => rfl) q _ e)) ?_
        rw [hqueue]
        exact AlertQueue.giveBackAll_induct (fun q order h => h.trans (.giveBack q s.time order)) (.refl _)
      have hsound : AlertQueue.Sound { s.queue with commFail := s.queue.commFail || r.isOwn } := hq.of_records ⟨rfl, rfl⟩
      refine hfrom.gone (hsound.depart_gone (by exact hmem) s.time) ((hq.ordered.2 r hmem).trans_le ?_)
      exact (AlertQueue.RecordsFrom.depart (name := Record.order) (fun _ => rfl)
        { s.queue with commFail := s.queue.commFail || r.isOwn } s.time r.order).admissions
    · refine hset.outcome_mem (e := ⟨p.origin, p.originSeq, .returned, false⟩) ?_
      rw [hmade]
      simp only [CarryUnit.afterFailure, hkind, horphan, Bool.false_eq_true, if_false]
      exact CarryUnit.addOutcome_mem _ _ _ _
    · rw [hset.outcomes, hmade]
      simp only [CarryUnit.afterFailure, hkind, horphan, if_true]

/-- Settles O59: the whole queue where no flag moves, then the record alone by the cause of the failure. -/
theorem failuresAreCounted : Obligations.FailuresAreCounted := by
  unfold Obligations.FailuresAreCounted
  refine ⟨failures_count_queue, fun s k r c hq hk hone hjoin hr hroom => ⟨?_, ?_⟩⟩
  · exact lineFailures_count s k r c hq hk hone hjoin hr hroom
  · exact centreFailures_count s k r c hq hk hone hjoin hr hroom

end Sys2Proof.Machine
